-- ==== Sys2Proof/Word.lean ====
section
/-! DEFINITION. The byte, the nibble, the nine-byte frame, and the words the request port carries.
Sources: spec/10_state.md R21, spec/20_memory.md R51, spec/30_encoding.md R80, R102, R104. -/

namespace Sys2Proof

/-- A byte is 8 bits, an unsigned integer 0 to 255 (`00_scope.md` R8). -/
abbrev Byte := BitVec 8

/-- Half a byte: the fan nibble or the mode nibble (`30_encoding.md` R83). -/
abbrev Nibble := BitVec 4

/-- A Frame: the nine bytes `F[0]` to `F[8]` under the names of `10_state.md` R21. -/
structure Frame where
  /-- `F[0]` -/
  deviceId : Byte
  /-- `F[1]` -/
  powerState : Byte
  /-- `F[2]`: fan nibble above, mode nibble below (`30_encoding.md` R83) -/
  fanMode : Byte
  /-- `F[3]` -/
  reserved3 : Byte
  /-- `F[4]`: temperature byte or sentinel (`30_encoding.md` R87) -/
  tempOrMode : Byte
  /-- `F[5]` -/
  reserved5 : Byte
  /-- `F[6]` -/
  reserved6 : Byte
  /-- `F[7]` -/
  reserved7 : Byte
  /-- `F[8]` -/
  checksum : Byte
  deriving DecidableEq, Repr

/-- What selects the instruction of a request, in the two formats of opcode_table.json: the three
operation-select lines (`30_encoding.md` R102), or a frame word presented to be decoded
(`30_encoding.md` R100; DESIGN CHOICE, log 4). -/
inductive PortWord where
  /-- format OP3 -/
  | op3 (code : BitVec 3)
  /-- format FRAME72 -/
  | frame72 (f : Frame)
  deriving DecidableEq, Repr

end Sys2Proof
end

