-- ==== Sys2Proof/Config.lean ====
section
/-! DEFINITION. The parameters a build of the framer fixes (spec/00_scope.md R7, spec/10_state.md R30,
spec/70_reset_and_hazards.md R253). They are arguments of the machine, not state: `Machine/Build.lean` has
the machine of every build, and the machine behind Host/Core.lean is the build at the values the spec
gives this hardware, `Config.params`.
No value of an operation is left free by the spec, so there is no opaque constant. -/

namespace Sys2Proof

/-- The two parameters of a build, with the defaults of `00_scope.md` R7. -/
structure Params where
  /-- TOL_PCT, per cent of the nominal duration on both sides (D6; log 1) -/
  tolPct : Nat := 25
  /-- DUR_W, the width in bits of a duration on the pulse port (D9; log 2) -/
  durW : Nat := 32
  deriving DecidableEq, Repr

namespace Config

/-- TOL_PCT, per cent of the nominal duration on both sides: "parameter, default 25" (R7, D6; log 1). -/
def tolPct : Nat := 25

/-- The largest TOL_PCT for which the two space windows are disjoint (`42_pulse_decode.md` R177). -/
def tolPctMax : Nat := 48

/-- DUR_W, the width in bits of a duration on the pulse port: "parameter, default 32" (R7, D9; log 2). -/
def durW : Nat := 32

/-- CARRIER_HZ: a property of the external transmitter, recorded for the host; no operation reads it
(R7, `70_reset_and_hazards.md` R262). -/
def carrierHz : Nat := 38000

/-- The build that this hardware is: both parameters at their default. -/
def params : Params := ⟨tolPct, durW⟩

end Config

/-- "TOL_PCT must satisfy 0 ≤ TOL_PCT ≤ 48 ...; a build outside that range is not this hardware"
(`70_reset_and_hazards.md` R253). -/
abbrev Params.Legal (p : Params) : Prop := p.tolPct ≤ Config.tolPctMax

end Sys2Proof
end

