-- ==== Sys2Proof/Machine/Types.lean ====
section
/-! DEFINITION. The data types of the operations: commands, pulse sequences, failures, results.
Sources: spec/30_encoding.md R92, R93, R95, R103, spec/60_exceptions.md R215, spec/10_state.md R24,
R27. -/

namespace Sys2Proof.Machine

/-- `mode` (`30_encoding.md` R92). HEAT is "unsupported": FENC fails on it. -/
inductive Mode where
  | off
  | cool
  | auto
  | fanOnly
  | dry
  | heat
  deriving DecidableEq, Repr

/-- `preset` (`30_encoding.md` R92). -/
inductive Preset where
  /-- NONE, "no preset" -/
  | none
  | eco
  | sleep
  deriving DecidableEq, Repr

/-- `fan_speed` (`30_encoding.md` R92). -/
inductive FanSpeed where
  | low
  | med
  | high
  deriving DecidableEq, Repr

/-- A SemanticCommand, the operand of FENC and SEND (`30_encoding.md` R92). The temperature is an
integer in degrees Fahrenheit, of any size. -/
structure SemanticCommand where
  mode : Mode
  preset : Preset
  fanSpeed : FanSpeed
  temperature : Int
  deriving DecidableEq, Repr

/-- A DecodedCommand, the result of FDEC and RECV (`30_encoding.md` R93): the fan speed may be UNSET
(`none`) and the temperature ABSENT (`none`). -/
structure DecodedCommand where
  mode : Mode
  preset : Preset
  fanSpeed : Option FanSpeed
  temperature : Option Int
  deriving DecidableEq, Repr

/-- A PulseSequence: durations in microseconds, mark first, alternating (`30_encoding.md` R95).
A duration is a natural number (`00_scope.md` R7, D9; log 2). -/
abbrev PulseSequence := List Nat

/-- The command operand as the host presents it: the enumerations, or the 16-bit command word CW of
`30_encoding.md` R103 (log 13). -/
inductive CommandOperand where
  | typed (c : SemanticCommand)
  | word (cw : BitVec 16)
  deriving DecidableEq, Repr

/-- The eight failures of `60_exceptions.md` R215; "the set is closed". They are results, not stops
(log 14). -/
inductive Failure where
  | temperatureOutOfRange
  | unsupportedMode
  | badDeviceId
  | checksumMismatch
  | unknownModeNibble
  | headerMismatch
  | bitPatternMismatch
  | truncatedFrame
  deriving DecidableEq, Repr

/-- The output value of an operation (`00_scope.md` R3). -/
inductive Value where
  /-- of FENC and PDEC -/
  | frame (F : Frame)
  /-- of FDEC and RECV -/
  | command (d : DecodedCommand)
  /-- of PENC and SEND -/
  | pulses (P : PulseSequence)
  deriving DecidableEq, Repr

/-- The result of an operation, `Ok(value)` or `Err(kind)` (`00_scope.md` R10); "a sum type with no
value in the failure arm" (`60_exceptions.md` R231). -/
inductive Response where
  | ok (v : Value)
  | err (k : Failure)
  deriving DecidableEq, Repr

/-- The `status` output (`10_state.md` R27). -/
inductive Status where
  | ok
  | err
  deriving DecidableEq, Repr

/-- The phases of PDEC's scan (`10_state.md` R24). -/
inductive Phase where
  | expectHeader
  | expectBit
  | done
  | failed
  deriving DecidableEq, Repr

/-- One request: the word that selects the instruction and the three operand ports
(`30_encoding.md` R102 to R104). Each operation reads the one port its row names. -/
structure Request where
  word : PortWord
  cmd : CommandOperand
  frame : Frame
  pulses : PulseSequence
  deriving DecidableEq, Repr

end Sys2Proof.Machine
end

