-- ==== Sys2Proof/Machine/State.lean ====
section
/-! DEFINITION. The state of one instance of the framer, as plain data, and its value after reset.
Sources: spec/10_state.md R20 to R34, spec/20_memory.md R50 to R52, spec/70_reset_and_hazards.md R250,
R254. There is no byte-addressed memory (spec/20_memory.md R50): the two index spaces are the frame
buffer and the pulse sequences. -/

namespace Sys2Proof.Machine

structure State where
  /-- the requests the host has presented and the block has not yet taken, oldest first
  (`70_reset_and_hazards.md` R254; log 8) -/
  requests : List Request
  /-- busy / idle (`10_state.md` R34); no step leaves it set, because an operation is one step -/
  busy : Bool
  /-- the command operand taken with the last request (`10_state.md` R31; log 17) -/
  cmdIn : CommandOperand
  /-- the frame operand taken with the last request (`10_state.md` R31; log 17) -/
  frameIn : Frame
  /-- the pulse operand taken with the last request (`10_state.md` R31; log 17) -/
  pulsesIn : PulseSequence
  /-- the frame buffer `F[0]` to `F[8]` (`10_state.md` R21) -/
  F : Frame
  /-- `phase` (`10_state.md` R24) -/
  phase : Phase
  /-- `byte_index`, 0 to 8 (`10_state.md` R24) -/
  byteIndex : Fin 9
  /-- `bit_index`, 7 down to 0 (`10_state.md` R24) -/
  bitIndex : Fin 8
  /-- `pos`, the index of the next unconsumed element (`10_state.md` R24) -/
  pos : Nat
  /-- PENC's emission position: the element produced next (`10_state.md` R25; log 11) -/
  emitPos : Nat
  /-- the output sequence emitted so far (`20_memory.md` R50, `00_scope.md` R9) -/
  emitted : PulseSequence
  /-- the result presented to the host: `status`, `err` and `result` in one (`10_state.md` R27;
  log 14). `none` is "no result is presented" (R34). -/
  out : Option Response
  deriving DecidableEq, Repr

/-- Reasons for which the machine stops. There are none: "There is no input that puts the framer in a
state from which it cannot accept the next request" (`60_exceptions.md` R236). The eight failures are
results (log 14). -/
inductive Fault where
  deriving DecidableEq, Repr

/-- Reasons for which the model has no meaning for an instruction. -/
inductive Refusal where
  /-- Raised by an arm of `exec` whose instruction has no meaning yet; safe. No arm raises it. -/
  | notModelled (mnemonic : String)
  deriving DecidableEq, Repr

/-- After reset (`10_state.md` R34): idle, no result presented, the scan registers at their start
values. `F` is "unspecified" there and zero here (DESIGN CHOICE, log 9); the operand ports, the
emitted sequence and the waiting requests have no reset value in the spec (DESIGN CHOICE, log 10). -/
def State.reset : State where
  requests := []
  busy := false
  cmdIn := .typed ⟨.off, .none, .low, 72⟩
  frameIn := ⟨0, 0, 0, 0, 0, 0, 0, 0, 0⟩
  pulsesIn := []
  F := ⟨0, 0, 0, 0, 0, 0, 0, 0, 0⟩
  phase := .expectHeader
  byteIndex := 0
  bitIndex := 7
  pos := 0
  emitPos := 0
  emitted := []
  out := none

end Sys2Proof.Machine
end

