-- ==== Sys2Proof/Machine/Flags.lean ====
section
/-! DEFINITION. The status outputs. "The framer has no arithmetic flags or condition codes" and the
carry of the checksum addition is kept nowhere (spec/10_state.md R27): the only status is the result
of the operation in hand. Failure codes: spec/60_exceptions.md R215, R224. -/

namespace Sys2Proof.Machine

/-- The numeric codes 1 to 8 of `60_exceptions.md` R215. -/
def Failure.code : Failure → Nat
  | .temperatureOutOfRange => 1
  | .unsupportedMode => 2
  | .badDeviceId => 3
  | .checksumMismatch => 4
  | .unknownModeNibble => 5
  | .headerMismatch => 6
  | .bitPatternMismatch => 7
  | .truncatedFrame => 8

/-- The `status` output; `none` while no result is presented (`10_state.md` R27, R34). -/
def State.status (s : State) : Option Status :=
  match s.out with
  | some (.ok _) => some .ok
  | some (.err _) => some .err
  | none => none

/-- The `err` output, meaningful only when `status` = Err (`10_state.md` R27). -/
def State.err (s : State) : Option Failure :=
  match s.out with
  | some (.err k) => some k
  | _ => none

/-- The `result` output, meaningful only when `status` = Ok (`10_state.md` R27). -/
def State.result (s : State) : Option Value :=
  match s.out with
  | some (.ok v) => some v
  | _ => none

/-- The `err` output as a number, for a port that needs one; "code 0 is no failure"
(`60_exceptions.md` R224). -/
def State.errCode (s : State) : Nat :=
  match s.err with
  | some k => k.code
  | none => 0

end Sys2Proof.Machine
end

