-- ==== Sys2Proof/Machine/Constants.lean ====
section
/-! DEFINITION. The hardwired constants of spec/10_state.md R28 (bytes) and R29 (durations, in
microseconds) and of spec/00_scope.md R7. No operation and no host action changes one (R28, R251). -/

namespace Sys2Proof.Machine

def DEVICE_ID : Byte := 0x19

def PWR_NORMAL : Byte := 0x80
def PWR_SLEEP : Byte := 0x81
def PWR_OFF : Byte := 0x00

/-- Fan codes, in place in the upper nibble (R28; `30_encoding.md` R84). -/
def FAN_LOW : Byte := 0x10
def FAN_MED : Byte := 0x20
def FAN_HIGH : Byte := 0x30

/-- Mode nibbles (R28; `30_encoding.md` R85). -/
def NIB_AUTO : Nibble := 0x0
def NIB_COOL : Nibble := 0x1
def NIB_DRY : Nibble := 0x2
def NIB_FAN : Nibble := 0x3
def NIB_ECO : Nibble := 0x5
def NIB_SLEEP : Nibble := 0x6

def OFF_FAN_MODE : Byte := 0x13
def VAL_AUTO : Byte := 0x48
def VAL_FAN_DRY_OFF : Byte := 0x4F
def RESERVED : Byte := 0x00

def TEMP_BASE : Int := 0x3E
def TEMP_MIN_F : Int := 62
def TEMP_MAX_F : Int := 86

def T_HDR_MARK : Nat := 8000
def T_HDR_SPACE : Nat := 4000
def T_BIT_MARK : Nat := 600
def T_ONE_SPACE : Nat := 1600
def T_ZERO_SPACE : Nat := 550
def T_TRAIL_MARK : Nat := 600

/-- PLEN, the number of elements PENC emits (`00_scope.md` R7, `41_pulse_encode.md` R166). -/
def PLEN : Nat := 147

/-- NBITS, the bits of a frame (`00_scope.md` R7). -/
def NBITS : Nat := 72

end Sys2Proof.Machine
end

