-- ==== Sys2Proof/Machine/Bits.lean ====
section
/-! DEFINITION. Bit fields of a byte, the bytes and bits of a frame, byte order, and the checksum
function. Sources: spec/00_scope.md R8, spec/20_memory.md R51, R55, R56, spec/30_encoding.md R83,
spec/40_framecodec.md R120, spec/42_pulse_decode.md R182. -/

namespace Sys2Proof

/-- `b[7:4]` (`00_scope.md` R8). -/
def upperNibble (b : Byte) : Nibble := b.extractLsb' 4 4

/-- `b[3:0]` (`00_scope.md` R8). -/
def lowerNibble (b : Byte) : Nibble := b.extractLsb' 0 4

/-- The byte with the given upper and lower nibble: `fan_nibble | mode_nibble` (`30_encoding.md` R83). -/
def nibbles (hi lo : Nibble) : Byte := hi ++ lo

/-- CSUM: the three bytes added, every carry out of bit 7 discarded (`40_framecodec.md` R120). -/
def csum (p m t : Byte) : Byte := p + m + t

/-- `F[i]` (`20_memory.md` R51). -/
def Frame.byte (F : Frame) (i : Fin 9) : Byte :=
  match i with
  | 0 => F.deviceId
  | 1 => F.powerState
  | 2 => F.fanMode
  | 3 => F.reserved3
  | 4 => F.tempOrMode
  | 5 => F.reserved5
  | 6 => F.reserved6
  | 7 => F.reserved7
  | 8 => F.checksum

/-- `F[i] <- v` (`00_scope.md` R9). -/
def Frame.setByte (F : Frame) (i : Fin 9) (v : Byte) : Frame :=
  match i with
  | 0 => { F with deviceId := v }
  | 1 => { F with powerState := v }
  | 2 => { F with fanMode := v }
  | 3 => { F with reserved3 := v }
  | 4 => { F with tempOrMode := v }
  | 5 => { F with reserved5 := v }
  | 6 => { F with reserved6 := v }
  | 7 => { F with reserved7 := v }
  | 8 => { F with checksum := v }

/-- `F[i][j:j]` as a truth value. -/
def Frame.bit (F : Frame) (i : Fin 9) (j : Fin 8) : Bool := (F.byte i).getLsbD j.val

/-- The byte with bit `j` equal to `b` and every other bit as before (`42_pulse_decode.md` R182). -/
def writeBit (v : Byte) (j : Fin 8) (b : Bool) : Byte :=
  if b then v ||| BitVec.twoPow 8 j.val else v &&& ~~~(BitVec.twoPow 8 j.val)

/-- "Bit `bit_index` of `F[byte_index]` becomes `b`; no other bit of the frame buffer changes"
(`42_pulse_decode.md` R182). -/
def Frame.setBit (F : Frame) (i : Fin 9) (j : Fin 8) (b : Bool) : Frame :=
  F.setByte i (writeBit (F.byte i) j b)

/-- All nine bytes 0x00. -/
def Frame.zero : Frame := ⟨0, 0, 0, 0, 0, 0, 0, 0, 0⟩

/-- The nine bytes in frame order, `F[0]` first (`20_memory.md` R55). -/
def Frame.bytes (F : Frame) : List Byte :=
  [F.deviceId, F.powerState, F.fanMode, F.reserved3, F.tempOrMode, F.reserved5, F.reserved6,
    F.reserved7, F.checksum]

/-- The 72-bit word view: `F[i] = W[71-8i : 64-8i]` (`20_memory.md` R56). -/
def Frame.ofWord (W : BitVec 72) : Frame where
  deviceId := W.extractLsb' 64 8
  powerState := W.extractLsb' 56 8
  fanMode := W.extractLsb' 48 8
  reserved3 := W.extractLsb' 40 8
  tempOrMode := W.extractLsb' 32 8
  reserved5 := W.extractLsb' 24 8
  reserved6 := W.extractLsb' 16 8
  reserved7 := W.extractLsb' 8 8
  checksum := W.extractLsb' 0 8

/-- `W = F[0]·2^64 + F[1]·2^56 + ... + F[8]` (`20_memory.md` R56). -/
def Frame.toWord (F : Frame) : BitVec 72 :=
  BitVec.ofNat 72
    (F.deviceId.toNat * 2 ^ 64 + F.powerState.toNat * 2 ^ 56 + F.fanMode.toNat * 2 ^ 48
      + F.reserved3.toNat * 2 ^ 40 + F.tempOrMode.toNat * 2 ^ 32 + F.reserved5.toNat * 2 ^ 24
      + F.reserved6.toNat * 2 ^ 16 + F.reserved7.toNat * 2 ^ 8 + F.checksum.toNat)

/-- The 72 bit positions (byte, bit) in wire order: byte 0 first, bit 7 first within a byte
(`20_memory.md` R55; the two loops of `41_pulse_encode.md` R160). -/
def wirePositions : List (Fin 9 × Fin 8) :=
  ([0, 1, 2, 3, 4, 5, 6, 7, 8] : List (Fin 9)).flatMap fun i =>
    ([7, 6, 5, 4, 3, 2, 1, 0] : List (Fin 8)).map fun j => (i, j)

/-- Wire bit `n`: bit `7 - (n mod 8)` of byte `F[n div 8]` (`20_memory.md` R54). -/
def Frame.wireBit (F : Frame) (n : Nat) : Bool :=
  (F.bytes.getD (n / 8) 0).getLsbD (7 - n % 8)

end Sys2Proof
end

