-- ==== Sys2Proof/Machine/Operands.lean ====
section
/-! DEFINITION. The operand forms: the command operand in its two forms and the command word of a
result. Sources: spec/30_encoding.md R92, R93, R103, R104, spec/92_eei_decisions.md D4, D32. -/

namespace Sys2Proof.Machine

/-- CW bits 2:0 on a request; 6 and 7 are reserved (`30_encoding.md` R103). -/
def modeOfCode (n : BitVec 3) : Option Mode :=
  match n with
  | 0#3 => some .off
  | 1#3 => some .cool
  | 2#3 => some .auto
  | 3#3 => some .fanOnly
  | 4#3 => some .dry
  | 5#3 => some .heat
  | _ => none

def modeCode : Mode → BitVec 3
  | .off => 0
  | .cool => 1
  | .auto => 2
  | .fanOnly => 3
  | .dry => 4
  | .heat => 5

/-- CW bits 4:3 on a request; 0 is UNSET, "produced by FDEC and RECV only" (`30_encoding.md` R103). -/
def fanOfCode (n : BitVec 2) : Option FanSpeed :=
  match n with
  | 1#2 => some .low
  | 2#2 => some .med
  | 3#2 => some .high
  | _ => none

def fanCode : FanSpeed → BitVec 2
  | .low => 1
  | .med => 2
  | .high => 3

/-- CW bits 6:5; 3 is reserved (`30_encoding.md` R103). -/
def presetOfCode (n : BitVec 2) : Option Preset :=
  match n with
  | 0#2 => some .none
  | 1#2 => some .eco
  | 2#2 => some .sleep
  | _ => none

def presetCode : Preset → BitVec 2
  | .none => 0
  | .eco => 1
  | .sleep => 2

/-- A command word with these codes in these fields (`30_encoding.md` R103). -/
def commandWord (mode : BitVec 3) (fan preset : BitVec 2) (tempPresent : BitVec 1) (temp : Byte) :
    BitVec 16 :=
  temp ++ tempPresent ++ preset ++ fan ++ mode

/-- The SemanticCommand a request's command word stands for, or `none` where a code is reserved or
the fan code is 0: such a request is refused (`30_encoding.md` R103, D32). Bit 7 is ignored. -/
def commandOfWord (cw : BitVec 16) : Option SemanticCommand :=
  match modeOfCode (cw.extractLsb' 0 3), fanOfCode (cw.extractLsb' 3 2),
      presetOfCode (cw.extractLsb' 5 2) with
  | some m, some f, some p => some ⟨m, p, f, ((cw.extractLsb' 8 8).toNat : Int)⟩
  | _, _, _ => none

/-- The command word of a request (`30_encoding.md` R103); the temperature field is 8 bits wide, and
bit 7 is set as in `95_test_vectors.md` Program 1. -/
def wordOfCommand (c : SemanticCommand) : BitVec 16 :=
  commandWord (modeCode c.mode) (fanCode c.fanSpeed) (presetCode c.preset) 1
    (BitVec.ofInt 8 c.temperature)

/-- The command word of a result (`30_encoding.md` R103): fan code 0 when UNSET; temp_present and the
temperature field 0 when ABSENT. -/
def wordOfDecoded (d : DecodedCommand) : BitVec 16 :=
  commandWord (modeCode d.mode)
    (match d.fanSpeed with
      | some f => fanCode f
      | none => 0)
    (presetCode d.preset)
    (match d.temperature with
      | some _ => 1
      | none => 0)
    (match d.temperature with
      | some t => BitVec.ofInt 8 t
      | none => 0)

/-- The command a command operand stands for; `none` is outside the operand type (D32). -/
def CommandOperand.command : CommandOperand → Option SemanticCommand
  | .typed c => some c
  | .word cw => commandOfWord cw

/-- A duration the pulse port can carry: `durW` bits, unsigned (`20_memory.md` R52). -/
def fitsDuration (durW : Nat) (d : Nat) : Bool := d < 2 ^ durW

/-- A sequence the pulse port can carry. -/
def fitsPort (durW : Nat) (P : PulseSequence) : Bool := P.all (fitsDuration durW)

end Sys2Proof.Machine
end

