-- ==== Sys2Proof/Machine/Ops.lean ====
section
/-! DEFINITION. The operations the instructions share: ending with a result, ending with a failure
(the framer's one kind of exception), refusing a request; the frame buffer, the scan registers and the
emission position; and the helper functions TEMP2BYTE, BYTE2TEMP, MATCH.
Sources: spec/60_exceptions.md R230 to R233, spec/10_state.md R23 to R25, R27, spec/40_framecodec.md R121,
R122, spec/42_pulse_decode.md R175, spec/41_pulse_encode.md R160. -/

namespace Sys2Proof.Machine

/-! ## How an operation ends -/

/-- `return v`: the operation ends with `Ok(v)` and the block is idle (`00_scope.md` R9, R10). -/
def deliver (v : Value) (s : State) : State := { s with out := some (.ok v), busy := false }

/-- `raise k`, taking a failure (`60_exceptions.md` R230): "`status` becomes Err and `err` the kind. No
result value is delivered. Nothing else changes": no mode switch, no saved program counter, no
vector. There is no return from it: "There is no return-from-trap operation and nothing to restore"
(R232). -/
def raiseFailure (k : Failure) (s : State) : State := { s with out := some (.err k), busy := false }

/-- A request outside the operand types: "no operation starts, no result, no failure kind" (D32,
`30_encoding.md` R102, R103; log 7). -/
def refuseRequest (s : State) : State := { s with out := none, busy := false }

/-! ## Operands and registers -/

/-- The block takes the request `r`, leaving `rest` waiting: it is busy, and the operands are taken by
value (`10_state.md` R31, `70_reset_and_hazards.md` R254). R31 speaks of the one operand the operation
reads; that all three ports are latched, at a refused request too, and keep their values after the
operation ends is a DESIGN CHOICE, log 17. -/
def takeRequest (r : Request) (rest : List Request) (s : State) : State :=
  { s with requests := rest, busy := true, cmdIn := r.cmd, frameIn := r.frame, pulsesIn := r.pulses }

/-- The frame word of a FRAME72 request is the frame operand (log 4). -/
def presentFrame (f : Frame) (s : State) : State := { s with frameIn := f }

/-- The frame buffer is loaded (`10_state.md` R23). -/
def loadFrame (f : Frame) (s : State) : State := { s with F := f }

/-! ## Temperatures -/

/-- TEMP2BYTE (`40_framecodec.md` R121). -/
def temp2byte (f : Int) : Except Failure Byte :=
  if f < TEMP_MIN_F ∨ f > TEMP_MAX_F then .error .temperatureOutOfRange
  else .ok (BitVec.ofInt 8 (TEMP_BASE + (f - TEMP_MIN_F)))

/-- BYTE2TEMP, on mathematical integers, with no range check (`40_framecodec.md` R122). -/
def byte2temp (b : Byte) : Int := ((b.toNat : Int) - TEMP_BASE) + TEMP_MIN_F

/-! ## The tolerance test -/

/-- MATCH(d, nom) at the tolerance `tol`: exact integers, both bounds included
(`42_pulse_decode.md` R175). -/
def matchDur (tol d nom : Nat) : Bool := 100 * ((d : Int) - (nom : Int)).natAbs ≤ tol * nom

/-! ## The emission (PENC, SEND) -/

/-- Element `k` of the sequence of frame `F`, `k` in 0 to 146: the element map of `20_memory.md` R54. -/
def pulseAt (F : Frame) (k : Nat) : Nat :=
  if k = 0 then T_HDR_MARK
  else if k = 1 then T_HDR_SPACE
  else if k = PLEN - 1 then T_TRAIL_MARK
  else if k % 2 = 0 then T_BIT_MARK
  else if F.wireBit ((k - 3) / 2) then T_ONE_SPACE
  else T_ZERO_SPACE

/-- At the start of PENC the position is element 0 and nothing is emitted (`10_state.md` R25). -/
def startEmission (s : State) : State := { s with emitPos := 0, emitted := [] }

/-- One element is emitted and the position advances by one (`10_state.md` R25). -/
def emitStep (s : State) : State :=
  { s with emitPos := s.emitPos + 1, emitted := s.emitted ++ [pulseAt s.F s.emitPos] }

def emitRun : Nat → State → State
  | 0, s => s
  | n + 1, s => emitRun n (emitStep s)

/-- The whole emission of the frame in the buffer: PENC ends after element 146 (`10_state.md` R25). -/
def runEmission (s : State) : State := emitRun PLEN (startEmission s)

/-! ## The scan (PDEC, RECV) -/

/-- The registers of the scan and the frame buffer it fills (`42_pulse_decode.md` R179), with the
kind of the failure once `phase` is Failed. -/
structure Scan where
  phase : Phase
  byteIndex : Fin 9
  bitIndex : Fin 8
  pos : Nat
  F : Frame
  failure : Option Failure
  deriving DecidableEq, Repr

/-- The start of PDEC (`42_pulse_decode.md` R179). -/
def scanStart : Scan := ⟨.expectHeader, 0, 7, 0, Frame.zero, none⟩

/-- `phase <- Failed; raise k`. -/
def scanFail (k : Failure) (sc : Scan) : Scan := { sc with phase := .failed, failure := some k }

/-- The advance after a bit (`42_pulse_decode.md` R183). -/
def scanAdvance (sc : Scan) : Scan :=
  if sc.bitIndex.val > 0 then { sc with bitIndex := sc.bitIndex - 1 }
  else if sc.byteIndex.val < 8 then { sc with bitIndex := 7, byteIndex := sc.byteIndex + 1 }
  else { sc with phase := .done }

/-- Writing the bit (`42_pulse_decode.md` R182), then the advance. -/
def scanBit (b : Bool) (sc : Scan) : Scan :=
  scanAdvance { sc with F := sc.F.setBit sc.byteIndex sc.bitIndex b }

/-- The step in phase ExpectHeader on the pair `m`, `sp` (`42_pulse_decode.md` R180). -/
def scanHeader (tol m sp : Nat) (sc : Scan) : Scan :=
  if matchDur tol m T_HDR_MARK && matchDur tol sp T_HDR_SPACE then { sc with phase := .expectBit }
  else scanFail .headerMismatch sc

/-- The step in phase ExpectBit on the pair `m`, `sp` (`42_pulse_decode.md` R181). -/
def scanPair (tol m sp : Nat) (sc : Scan) : Scan :=
  if matchDur tol m T_BIT_MARK = false then scanFail .bitPatternMismatch sc
  else if matchDur tol sp T_ONE_SPACE then scanBit true sc
  else if matchDur tol sp T_ZERO_SPACE then scanBit false sc
  else scanFail .bitPatternMismatch sc

/-- One step of the state machine on the input sequence `P` (`42_pulse_decode.md` R180, R181, R185):
the test for two remaining elements comes before any comparison, and a pair is consumed before it is
compared. No step is taken in Done (R184) or after a failure. -/
def scanStep (tol : Nat) (P : PulseSequence) (sc : Scan) : Scan :=
  match sc.phase with
  | .done => sc
  | .failed => sc
  | .expectHeader =>
    match P[sc.pos]?, P[sc.pos + 1]? with
    | some m, some sp => scanHeader tol m sp { sc with pos := sc.pos + 2 }
    | _, _ => scanFail .truncatedFrame sc
  | .expectBit =>
    match P[sc.pos]?, P[sc.pos + 1]? with
    | some m, some sp => scanPair tol m sp { sc with pos := sc.pos + 2 }
    | _, _ => scanFail .truncatedFrame sc

def scanRun (tol : Nat) (P : PulseSequence) : Nat → Scan → Scan
  | 0, sc => sc
  | n + 1, sc => scanRun tol P n (scanStep tol P sc)

/-- The whole scan: "every run ends after at most 73 steps" (`42_pulse_decode.md` R179). -/
def scanAll (tol : Nat) (P : PulseSequence) : Scan := scanRun tol P (NBITS + 1) scanStart

/-- The scan's registers written back into the state. -/
def writeScan (sc : Scan) (s : State) : State :=
  { s with F := sc.F, phase := sc.phase, byteIndex := sc.byteIndex, bitIndex := sc.bitIndex,
           pos := sc.pos }

end Sys2Proof.Machine
end

