-- ==== Sys2Proof/Machine/FrameCodec.lean ====
section
/-! DEFINITION. FrameCodec: FENC and FDEC, as functions of their operands and as instructions.
Source: spec/40_framecodec.md R124 to R147. -/

namespace Sys2Proof.Machine

/-! ## FENC -/

/-- Step 2 (`40_framecodec.md` R126). -/
def powerByte (p : Preset) : Byte := if p = .sleep then PWR_SLEEP else PWR_NORMAL

/-- Step 3 (`40_framecodec.md` R127). -/
def fanByte : FanSpeed → Byte
  | .low => FAN_LOW
  | .med => FAN_MED
  | .high => FAN_HIGH

/-- Step 5: `fm <- fan_nib | mode_nib` (`40_framecodec.md` R136). -/
def fanModeByte (fan : Byte) (mode : Nibble) : Byte := fan ||| mode.setWidth 8

/-- Steps 6 and 7 (`40_framecodec.md` R136). -/
def buildFrame (p fm t : Byte) : Frame where
  deviceId := DEVICE_ID
  powerState := p
  fanMode := fm
  reserved3 := RESERVED
  tempOrMode := t
  reserved5 := RESERVED
  reserved6 := RESERVED
  reserved7 := RESERVED
  checksum := csum p fm t

/-- The branches of step 4 that convert the temperature, which can fail inside TEMP2BYTE. -/
def coolBranch (fan : Byte) (mode : Nibble) (f : Int) : Except Failure (Byte × Byte) :=
  match temp2byte f with
  | .ok t => .ok (fanModeByte fan mode, t)
  | .error k => .error k

/-- Steps 4 and 5: the fan/mode byte and `F[4]`, in the priority order of `40_framecodec.md` R128. -/
def modeBranch (c : SemanticCommand) : Except Failure (Byte × Byte) :=
  if c.mode = .fanOnly then .ok (fanModeByte (fanByte c.fanSpeed) NIB_FAN, VAL_FAN_DRY_OFF)
  else if c.mode = .auto then .ok (fanModeByte (fanByte c.fanSpeed) NIB_AUTO, VAL_AUTO)
  else if c.mode = .dry then .ok (fanModeByte FAN_LOW NIB_DRY, VAL_FAN_DRY_OFF)
  else if c.mode = .heat then .error .unsupportedMode
  else if c.preset = .sleep then coolBranch (fanByte c.fanSpeed) NIB_SLEEP c.temperature
  else if c.preset = .eco then coolBranch (fanByte c.fanSpeed) NIB_ECO c.temperature
  else coolBranch (fanByte c.fanSpeed) NIB_COOL c.temperature

/-- FENC as a function (`40_framecodec.md` R124). -/
def fenc (c : SemanticCommand) : Except Failure Frame :=
  if c.mode = .off then .ok (buildFrame PWR_OFF OFF_FAN_MODE VAL_FAN_DRY_OFF)
  else
    match modeBranch c with
    | .ok (fm, t) => .ok (buildFrame (powerByte c.preset) fm t)
    | .error k => .error k

/-- FENC on the command `c`: the nine bytes are written, or nothing is (`10_state.md` R23). -/
def fencOn (c : SemanticCommand) (s : State) : State :=
  match fenc c with
  | .ok f => deliver (.frame f) (loadFrame f s)
  | .error k => raiseFailure k s

/-- FENC (`40_framecodec.md` R124). -/
def execFenc (s : State) : Host.Outcome State Fault Refusal :=
  match s.cmdIn.command with
  | some c => .next (fencOn c s)
  | none => .next (refuseRequest s)

/-! ## FDEC -/

/-- The fan speed of `F[2] & 0xF0` (`40_framecodec.md` R146; `30_encoding.md` R84). -/
def fanOfByte (fm : Byte) : Option FanSpeed :=
  if fm &&& 0xF0 = FAN_LOW then some .low
  else if fm &&& 0xF0 = FAN_MED then some .med
  else if fm &&& 0xF0 = FAN_HIGH then some .high
  else none

/-- Check 4 and the decode mapping (`40_framecodec.md` R144, R145). -/
def decodeMode (F : Frame) : Except Failure DecodedCommand :=
  if lowerNibble F.fanMode = NIB_AUTO then .ok ⟨.auto, .none, fanOfByte F.fanMode, none⟩
  else if lowerNibble F.fanMode = NIB_COOL then
    .ok ⟨.cool, .none, fanOfByte F.fanMode, some (byte2temp F.tempOrMode)⟩
  else if lowerNibble F.fanMode = NIB_DRY then .ok ⟨.dry, .none, some .low, none⟩
  else if lowerNibble F.fanMode = NIB_FAN then .ok ⟨.fanOnly, .none, fanOfByte F.fanMode, none⟩
  else if lowerNibble F.fanMode = NIB_ECO then
    .ok ⟨.cool, .eco, fanOfByte F.fanMode, some (byte2temp F.tempOrMode)⟩
  else if lowerNibble F.fanMode = NIB_SLEEP then
    .ok ⟨.cool, .sleep, fanOfByte F.fanMode, some (byte2temp F.tempOrMode)⟩
  else .error .unknownModeNibble

/-- FDEC as a function; "the order of the four checks is normative" (`40_framecodec.md` R140). -/
def fdec (F : Frame) : Except Failure DecodedCommand :=
  if F.deviceId ≠ DEVICE_ID then .error .badDeviceId
  else if F.checksum ≠ csum F.powerState F.fanMode F.tempOrMode then .error .checksumMismatch
  else if F.powerState = PWR_OFF then .ok ⟨.off, .none, fanOfByte F.fanMode, none⟩
  else decodeMode F

/-- The checks of FDEC on the frame buffer, and its end. -/
def fdecBuffer (s : State) : State :=
  match fdec s.F with
  | .ok d => deliver (.command d) s
  | .error k => raiseFailure k s

/-- FDEC (`40_framecodec.md` R140): the buffer is loaded with the input frame (`10_state.md` R23). -/
def execFdec (s : State) : Host.Outcome State Fault Refusal :=
  .next (fdecBuffer (loadFrame s.frameIn s))

end Sys2Proof.Machine
end

