-- ==== Sys2Proof/Machine/PulseCodec.lean ====
section
/-! DEFINITION. PulseCodec: PENC and PDEC. The instructions run the emission position and the scan
machine; the functions of spec/41_pulse_encode.md R160 and spec/42_pulse_decode.md R178 stand beside
them, for claims that the two say the same.
Sources: spec/41_pulse_encode.md R160 to R166, spec/42_pulse_decode.md R178 to R191. -/

namespace Sys2Proof.Machine

/-! ## PENC -/

/-- The mark and the space of one bit (`30_encoding.md` R96). -/
def bitPulses (b : Bool) : PulseSequence := [T_BIT_MARK, if b then T_ONE_SPACE else T_ZERO_SPACE]

/-- PENC as a function: the pseudocode of `41_pulse_encode.md` R160. -/
def penc (F : Frame) : PulseSequence :=
  [T_HDR_MARK, T_HDR_SPACE] ++ wirePositions.flatMap (fun p => bitPulses (F.bit p.1 p.2))
    ++ [T_TRAIL_MARK]

/-- PENC on the frame buffer (`10_state.md` R25): the emission runs to its end and the sequence
emitted is the result. -/
def pencBuffer (s : State) : State := deliver (.pulses (runEmission s).emitted) (runEmission s)

/-- PENC (`41_pulse_encode.md` R160): the buffer is loaded with the input frame (`10_state.md` R23). -/
def execPenc (s : State) : Host.Outcome State Fault Refusal :=
  .next (pencBuffer (loadFrame s.frameIn s))

/-! ## PDEC -/

/-- The loops of `42_pulse_decode.md` R178 over the bit positions still to fill. -/
def pdecBits (tol : Nat) : List (Fin 9 × Fin 8) → PulseSequence → Frame → Except Failure Frame
  | [], _, F => .ok F
  | (i, j) :: ps, m :: sp :: rest, F =>
    if matchDur tol m T_BIT_MARK = false then .error .bitPatternMismatch
    else if matchDur tol sp T_ONE_SPACE then
      pdecBits tol ps rest (F.setByte i (F.byte i ||| BitVec.twoPow 8 j.val))
    else if matchDur tol sp T_ZERO_SPACE then pdecBits tol ps rest F
    else .error .bitPatternMismatch
  | _ :: _, _, _ => .error .truncatedFrame

/-- PDEC as a function: the pseudocode of `42_pulse_decode.md` R178. -/
def pdec (tol : Nat) (P : PulseSequence) : Except Failure Frame :=
  match P with
  | m :: sp :: rest =>
    if matchDur tol m T_HDR_MARK = false ∨ matchDur tol sp T_HDR_SPACE = false then
      .error .headerMismatch
    else pdecBits tol wirePositions rest Frame.zero
  | _ => .error .truncatedFrame

/-- The end of PDEC: `Ok(F)` on entering Done, the failure otherwise (`42_pulse_decode.md` R184). -/
def pdecEnd (sc : Scan) (s : State) : State :=
  match sc.failure with
  | none => deliver (.frame sc.F) (writeScan sc s)
  | some k => raiseFailure k (writeScan sc s)

/-- PDEC of the build `p` (`42_pulse_decode.md` R178 to R185), by the state machine, at the tolerance of
the build (`10_state.md` R30). -/
def execPdecIn (p : Params) (s : State) : Host.Outcome State Fault Refusal :=
  .next (pdecEnd (scanAll p.tolPct s.pulsesIn) s)

/-- PDEC of this hardware. -/
def execPdec (s : State) : Host.Outcome State Fault Refusal := execPdecIn Config.params s

end Sys2Proof.Machine
end

