-- ==== Sys2Proof/Machine/Driver.lean ====
section
/-! DEFINITION. The Driver: SEND and RECV, two stages in order on the same frame buffer
(spec/43_driver.md R200, R202; spec/10_state.md R23). A failure of the first stage ends the operation. -/

namespace Sys2Proof.Machine

/-- SEND on the command `c`: FENC, then PENC on the frame it built (`43_driver.md` R200). -/
def sendOn (c : SemanticCommand) (s : State) : State :=
  match fenc c with
  | .ok f => pencBuffer (loadFrame f s)
  | .error k => raiseFailure k s

/-- SEND (`43_driver.md` R200). -/
def execSend (s : State) : Host.Outcome State Fault Refusal :=
  match s.cmdIn.command with
  | some c => .next (sendOn c s)
  | none => .next (refuseRequest s)

/-- The second stage of RECV: FDEC on the buffer PDEC filled, unless PDEC failed (`43_driver.md` R202). -/
def recvEnd (sc : Scan) (s : State) : State :=
  match sc.failure with
  | none => fdecBuffer (writeScan sc s)
  | some k => raiseFailure k (writeScan sc s)

/-- RECV of the build `p` (`43_driver.md` R202), at the tolerance of the build (`10_state.md` R30). -/
def execRecvIn (p : Params) (s : State) : Host.Outcome State Fault Refusal :=
  .next (recvEnd (scanAll p.tolPct s.pulsesIn) s)

/-- RECV of this hardware. -/
def execRecv (s : State) : Host.Outcome State Fault Refusal := execRecvIn Config.params s

end Sys2Proof.Machine
end

