-- ==== Sys2Proof/Syntax.lean ====
section
/-! DEFINITION. The instructions: the thirteen rows of spec/opcode_table.json, the six operations of
spec/00_scope.md R3 (format OP3) and the seven frame forms of spec/30_encoding.md R89 and R100
(format FRAME72). An operation carries no field: its operand is on the operand port its row names.
A frame form carries every bit its `mask` leaves open but the checksum byte, which the other bytes
determine (R88). -/

namespace Sys2Proof

/-- The open bytes of the OFF form: everything but `F[0]` = 0x19, `F[1]` = 0x00 and `F[8]`. -/
structure OffFields where
  fanMode : Byte
  reserved3 : Byte
  tempOrMode : Byte
  reserved5 : Byte
  reserved6 : Byte
  reserved7 : Byte
  deriving DecidableEq, Repr

/-- The open fields of the six forms that are not OFF: everything but `F[0]` = 0x19, the mode nibble
and `F[8]`. -/
structure OnFields where
  powerState : Byte
  fanNibble : Nibble
  reserved3 : Byte
  tempOrMode : Byte
  reserved5 : Byte
  reserved6 : Byte
  reserved7 : Byte
  deriving DecidableEq, Repr

inductive Instr where
  /-- FrameCodec.encode (`40_framecodec.md` R124) -/
  | fenc
  /-- FrameCodec.decode (`40_framecodec.md` R140) -/
  | fdec
  /-- PulseCodec.encode (`41_pulse_encode.md` R160) -/
  | penc
  /-- PulseCodec.decode (`42_pulse_decode.md` R178) -/
  | pdec
  /-- Driver.send (`43_driver.md` R200) -/
  | send
  /-- Driver.receive (`43_driver.md` R202) -/
  | recv
  /-- FRAME.OFF -/
  | frameOff (x : OffFields)
  /-- FRAME.AUTO -/
  | frameAuto (x : OnFields)
  /-- FRAME.COOL -/
  | frameCool (x : OnFields)
  /-- FRAME.DRY -/
  | frameDry (x : OnFields)
  /-- FRAME.FAN_ONLY -/
  | frameFanOnly (x : OnFields)
  /-- FRAME.ECO -/
  | frameEco (x : OnFields)
  /-- FRAME.SLEEP -/
  | frameSleep (x : OnFields)
  deriving DecidableEq, Repr

end Sys2Proof
end

