-- ==== Sys2Proof/WellFormed.lean ====
section
/-! DEFINITION. Which instruction terms are instructions. The field types already bound every field;
the one further check is the priority of spec/30_encoding.md R100: a frame whose `F[1]` is 0x00 is OFF
whatever its mode nibble, so the other six forms have `F[1]` not 0x00. -/

namespace Sys2Proof

/-- "`F[1]` != 0x00 (else the OFF row applies)" (opcode_table.json; `30_encoding.md` R82, R100). -/
def OnFields.wellFormed (x : OnFields) : Bool := x.powerState != 0x00

def Instr.wellFormed : Instr → Bool
  | .fenc => true
  | .fdec => true
  | .penc => true
  | .pdec => true
  | .send => true
  | .recv => true
  | .frameOff _ => true
  | .frameAuto x => x.wellFormed
  | .frameCool x => x.wellFormed
  | .frameDry x => x.wellFormed
  | .frameFanOnly x => x.wellFormed
  | .frameEco x => x.wellFormed
  | .frameSleep x => x.wellFormed

end Sys2Proof
end

