-- ==== Sys2Proof/Decode.lean ====
section
/-! DEFINITION. From bits to an instruction or a rejection by name, and back.
Sources: spec/30_encoding.md R80, R85, R89, R99, R100, R102, spec/20_memory.md R55, R56, and the rows
of spec/opcode_table.json. -/

namespace Sys2Proof

open Sys2Proof.Machine

/-- Why no instruction is read. The last four name what the spec names; the first two are about
byte strings that no request port word is (log 6). -/
inductive Reject where
  /-- not one byte (OP3) and not nine bytes (FRAME72) -/
  | wrongLength
  /-- one byte with a bit set above the three select lines -/
  | opTooWide
  /-- operation select 110 or 111 (`30_encoding.md` R102) -/
  | reservedOpCode
  /-- `F[0]` is not 0x19 (`40_framecodec.md` R141) -/
  | badDeviceId
  /-- `F[8]` is not CSUM(F[1], F[2], F[4]) (`40_framecodec.md` R142) -/
  | checksumMismatch
  /-- mode nibble 0x4 or 0x7 to 0xF with `F[1]` not 0x00 (`40_framecodec.md` R144) -/
  | unknownModeNibble
  deriving DecidableEq, Repr

/-- The operation-select codes of `30_encoding.md` R102. -/
def decodeOp (code : BitVec 3) : Except Reject Instr :=
  match code with
  | 0b000#3 => .ok .fenc
  | 0b001#3 => .ok .fdec
  | 0b010#3 => .ok .penc
  | 0b011#3 => .ok .pdec
  | 0b100#3 => .ok .send
  | 0b101#3 => .ok .recv
  | _ => .error .reservedOpCode

/-- The fields of a frame that the OFF form leaves open. -/
def Frame.offFields (F : Frame) : OffFields where
  fanMode := F.fanMode
  reserved3 := F.reserved3
  tempOrMode := F.tempOrMode
  reserved5 := F.reserved5
  reserved6 := F.reserved6
  reserved7 := F.reserved7

/-- The fields of a frame that the other six forms leave open. -/
def Frame.onFields (F : Frame) : OnFields where
  powerState := F.powerState
  fanNibble := upperNibble F.fanMode
  reserved3 := F.reserved3
  tempOrMode := F.tempOrMode
  reserved5 := F.reserved5
  reserved6 := F.reserved6
  reserved7 := F.reserved7

/-- The form a mode nibble selects (`30_encoding.md` R85, R100 priority 2 and 3). -/
def formOfNibble (n : Nibble) (x : OnFields) : Except Reject Instr :=
  if n = NIB_AUTO then .ok (.frameAuto x)
  else if n = NIB_COOL then .ok (.frameCool x)
  else if n = NIB_DRY then .ok (.frameDry x)
  else if n = NIB_FAN then .ok (.frameFanOnly x)
  else if n = NIB_ECO then .ok (.frameEco x)
  else if n = NIB_SLEEP then .ok (.frameSleep x)
  else .error .unknownModeNibble

/-- The acceptance patterns of `30_encoding.md` R100, in priority order, after the device-id and
checksum checks that every row has as its precondition. -/
def decodeFrame (F : Frame) : Except Reject Instr :=
  if F.deviceId ≠ DEVICE_ID then .error .badDeviceId
  else if F.checksum ≠ csum F.powerState F.fanMode F.tempOrMode then .error .checksumMismatch
  else if F.powerState = PWR_OFF then .ok (.frameOff F.offFields)
  else formOfNibble (lowerNibble F.fanMode) F.onFields

/-- The instruction a request's word selects. -/
def decodeWord : PortWord → Except Reject Instr
  | .op3 code => decodeOp code
  | .frame72 F => decodeFrame F

/-- The port word a byte string is: one byte whose low three bits are the select lines and whose
other bits are zero, or the nine bytes of a frame, `F[0]` first (log 6). -/
def PortWord.ofBytes : List Byte → Except Reject PortWord
  | [b] => if b.toNat < 8 then .ok (.op3 (BitVec.ofNat 3 b.toNat)) else .error .opTooWide
  | [b0, b1, b2, b3, b4, b5, b6, b7, b8] => .ok (.frame72 ⟨b0, b1, b2, b3, b4, b5, b6, b7, b8⟩)
  | _ => .error .wrongLength

/-- The bytes of a port word. -/
def PortWord.bytes : PortWord → List Byte
  | .op3 code => [BitVec.ofNat 8 code.toNat]
  | .frame72 F => F.bytes

/-- The decoder, total on any bytes. -/
def decode (bs : List Byte) : Except Reject Instr :=
  match PortWord.ofBytes bs with
  | .ok w => decodeWord w
  | .error e => .error e

/-- The frame of the OFF form with these fields (`30_encoding.md` R100 row OFF, R88). -/
def OffFields.toFrame (x : OffFields) : Frame where
  deviceId := DEVICE_ID
  powerState := PWR_OFF
  fanMode := x.fanMode
  reserved3 := x.reserved3
  tempOrMode := x.tempOrMode
  reserved5 := x.reserved5
  reserved6 := x.reserved6
  reserved7 := x.reserved7
  checksum := csum PWR_OFF x.fanMode x.tempOrMode

/-- The frame with these fields and this mode nibble (`30_encoding.md` R100, R83, R88). -/
def OnFields.toFrame (x : OnFields) (mode : Nibble) : Frame where
  deviceId := DEVICE_ID
  powerState := x.powerState
  fanMode := nibbles x.fanNibble mode
  reserved3 := x.reserved3
  tempOrMode := x.tempOrMode
  reserved5 := x.reserved5
  reserved6 := x.reserved6
  reserved7 := x.reserved7
  checksum := csum x.powerState (nibbles x.fanNibble mode) x.tempOrMode

/-- The port word of an instruction: the code of `30_encoding.md` R102 or the frame of R100. -/
def encodeWord : Instr → PortWord
  | .fenc => .op3 0b000
  | .fdec => .op3 0b001
  | .penc => .op3 0b010
  | .pdec => .op3 0b011
  | .send => .op3 0b100
  | .recv => .op3 0b101
  | .frameOff x => .frame72 x.toFrame
  | .frameAuto x => .frame72 (x.toFrame NIB_AUTO)
  | .frameCool x => .frame72 (x.toFrame NIB_COOL)
  | .frameDry x => .frame72 (x.toFrame NIB_DRY)
  | .frameFanOnly x => .frame72 (x.toFrame NIB_FAN)
  | .frameEco x => .frame72 (x.toFrame NIB_ECO)
  | .frameSleep x => .frame72 (x.toFrame NIB_SLEEP)

/-- The bytes of an instruction. -/
def encode (i : Instr) : List Byte := (encodeWord i).bytes

/-- The port word whose bits are `w`, numbered as opcode_table.json numbers them: an OP3 row's three
bits in one byte, a FRAME72 row's 72-bit word W (`20_memory.md` R56). -/
def PortWord.ofTable (nbits w : Nat) : Option PortWord :=
  if nbits ≤ 8 then
    if w < 8 then some (.op3 (BitVec.ofNat 3 w)) else none
  else if nbits = 72 ∧ w < 2 ^ 72 then some (.frame72 (Frame.ofWord (BitVec.ofNat 72 w)))
  else none

/-- The instruction the decoder reads from the word `w` of `nbits` bits. -/
def decodeTableWord (nbits w : Nat) : Option Instr :=
  match PortWord.ofTable nbits w with
  | none => none
  | some p =>
    match decode p.bytes with
    | .ok i => some i
    | .error _ => none

end Sys2Proof
end

