-- ==== Sys2Proof/Machine/FrameForms.lean ====
section
/-! DEFINITION. The seven frame forms as instructions (log 4): a frame of the form, presented at the
frame port, is decoded. Each form delivers the command its row of the decode mapping gives
(spec/40_framecodec.md R143, R145, R146; spec/30_encoding.md R85). The device id, the checksum and the
power byte have been checked by the decoder that found the form (spec/30_encoding.md R100). -/

namespace Sys2Proof.Machine

/-- The frame `f` is the frame operand and is loaded into the buffer, and `d` is the result. -/
def deliverDecoded (f : Frame) (d : DecodedCommand) (s : State) :
    Host.Outcome State Fault Refusal :=
  .next (deliver (.command d) (loadFrame f (presentFrame f s)))

/-- The fan speed a fan nibble stands for (`30_encoding.md` R84). -/
def fanOfNibble (n : Nibble) : Option FanSpeed :=
  match n with
  | 1#4 => some .low
  | 2#4 => some .med
  | 3#4 => some .high
  | _ => none

/-- FRAME.OFF (`40_framecodec.md` R143). -/
def execFrameOff (x : OffFields) (s : State) : Host.Outcome State Fault Refusal :=
  deliverDecoded x.toFrame ⟨.off, .none, fanOfNibble (upperNibble x.fanMode), none⟩ s

/-- FRAME.AUTO (`40_framecodec.md` R145, nibble 0x0). -/
def execFrameAuto (x : OnFields) (s : State) : Host.Outcome State Fault Refusal :=
  deliverDecoded (x.toFrame NIB_AUTO) ⟨.auto, .none, fanOfNibble x.fanNibble, none⟩ s

/-- FRAME.COOL (`40_framecodec.md` R145, nibble 0x1). -/
def execFrameCool (x : OnFields) (s : State) : Host.Outcome State Fault Refusal :=
  deliverDecoded (x.toFrame NIB_COOL)
    ⟨.cool, .none, fanOfNibble x.fanNibble, some (byte2temp x.tempOrMode)⟩ s

/-- FRAME.DRY (`40_framecodec.md` R145, nibble 0x2): the fan is forced LOW (R146). -/
def execFrameDry (x : OnFields) (s : State) : Host.Outcome State Fault Refusal :=
  deliverDecoded (x.toFrame NIB_DRY) ⟨.dry, .none, some .low, none⟩ s

/-- FRAME.FAN_ONLY (`40_framecodec.md` R145, nibble 0x3). -/
def execFrameFanOnly (x : OnFields) (s : State) : Host.Outcome State Fault Refusal :=
  deliverDecoded (x.toFrame NIB_FAN) ⟨.fanOnly, .none, fanOfNibble x.fanNibble, none⟩ s

/-- FRAME.ECO (`40_framecodec.md` R145, nibble 0x5). -/
def execFrameEco (x : OnFields) (s : State) : Host.Outcome State Fault Refusal :=
  deliverDecoded (x.toFrame NIB_ECO)
    ⟨.cool, .eco, fanOfNibble x.fanNibble, some (byte2temp x.tempOrMode)⟩ s

/-- FRAME.SLEEP (`40_framecodec.md` R145, nibble 0x6). -/
def execFrameSleep (x : OnFields) (s : State) : Host.Outcome State Fault Refusal :=
  deliverDecoded (x.toFrame NIB_SLEEP)
    ⟨.cool, .sleep, fanOfNibble x.fanNibble, some (byte2temp x.tempOrMode)⟩ s

end Sys2Proof.Machine
end

