-- ==== Sys2Proof/Machine/Dispatch.lean ====
section
/-! DEFINITION. One arm per instruction, one direct call of its meaning each. -/

namespace Sys2Proof.Machine

def exec (i : Instr) (s : State) : Host.Outcome State Fault Refusal :=
  match i with
  | .fenc => Sys2Proof.Machine.execFenc s
  | .fdec => Sys2Proof.Machine.execFdec s
  | .penc => Sys2Proof.Machine.execPenc s
  | .pdec => Sys2Proof.Machine.execPdec s
  | .send => Sys2Proof.Machine.execSend s
  | .recv => Sys2Proof.Machine.execRecv s
  | .frameOff x => Sys2Proof.Machine.execFrameOff x s
  | .frameAuto x => Sys2Proof.Machine.execFrameAuto x s
  | .frameCool x => Sys2Proof.Machine.execFrameCool x s
  | .frameDry x => Sys2Proof.Machine.execFrameDry x s
  | .frameFanOnly x => Sys2Proof.Machine.execFrameFanOnly x s
  | .frameEco x => Sys2Proof.Machine.execFrameEco x s
  | .frameSleep x => Sys2Proof.Machine.execFrameSleep x s

end Sys2Proof.Machine
end

