-- ==== Sys2Proof/Machine/Port.lean ====
section
/-! DEFINITION. The request port: presenting a request, serving one, and what a request whose word is no
instruction comes to. Sources: spec/70_reset_and_hazards.md R254, spec/30_encoding.md R99, R102,
spec/40_framecodec.md R141 to R144. -/

namespace Sys2Proof.Machine

/-- The host presents a request; it waits behind those already waiting (`70_reset_and_hazards.md`
R254; log 8). -/
def submit (r : Request) (s : State) : State := { s with requests := s.requests ++ [r] }

/-- A frame presented to be decoded that fails one of FDEC's checks: the buffer is loaded and the
failure raised (`40_framecodec.md` R140; log 5). -/
def rejectFrame (k : Failure) (w : PortWord) (s : State) : State :=
  match w with
  | .frame72 f => raiseFailure k (loadFrame f (presentFrame f s))
  | .op3 _ => raiseFailure k s

/-- What a request whose word the decoder rejects comes to: FDEC's failure for a frame
(`30_encoding.md` R99), a refusal for a reserved operation code (R102; log 7). The first two
rejections are of byte strings that no request holds. -/
def rejectRequest (e : Reject) (w : PortWord) (s : State) : State :=
  match e with
  | .wrongLength => refuseRequest s
  | .opTooWide => refuseRequest s
  | .reservedOpCode => refuseRequest s
  | .badDeviceId => rejectFrame .badDeviceId w s
  | .checksumMismatch => rejectFrame .checksumMismatch w s
  | .unknownModeNibble => rejectFrame .unknownModeNibble w s

/-- Serving the oldest waiting request with `run` as the meaning of instructions. With no request
waiting the block stays as it is: it watches no line (`60_exceptions.md` R234). -/
def serve (run : Instr → State → Host.Outcome State Fault Refusal) (s : State) :
    Host.Outcome State Fault Refusal :=
  match s.requests with
  | [] => .next s
  | r :: rest =>
    match decodeWord r.word with
    | .ok i => run i (takeRequest r rest s)
    | .error e => .next (rejectRequest e r.word (takeRequest r rest s))

/-- The request a word makes with the operands that stand on the ports of `s`. -/
def requestOfWord (w : PortWord) (s : State) : Request := ⟨w, s.cmdIn, s.frameIn, s.pulsesIn⟩

end Sys2Proof.Machine
end

