-- ==== Sys2Proof/Machine/Step.lean ====
section
/-! DEFINITION. One step: the block serves the oldest waiting request, whole (spec/70_reset_and_hazards.md
R254, spec/20_memory.md R61; log 3). -/

namespace Sys2Proof.Machine

/-- One step of this hardware. -/
def step (s : State) : Host.Outcome State Fault Refusal := serve exec s

/-- `s` with the instruction whose bits are `w` as the request served next, on the operands that stand
on the ports; a word that no request port word has leaves `s` as it is (log 12). -/
def State.withFetchWord (s : State) (nbits w : Nat) : State :=
  match PortWord.ofTable nbits w with
  | some p => { s with requests := requestOfWord p s :: s.requests }
  | none => s

end Sys2Proof.Machine
end

