-- ==== Sys2Proof/Machine/Build.lean ====
section
/-! DEFINITION. The machine of every build: the parameters are arguments of the machine
(spec/70_reset_and_hazards.md R253, spec/00_scope.md R7). "Only PDEC (and RECV through it) reads" the
tolerance (spec/10_state.md R30), and no operation reads DUR_W (log 2), so the other instructions are those
of `exec`. -/

namespace Sys2Proof.Machine

/-- Executing an instruction in the build `p`. -/
def execIn (p : Params) (i : Instr) (s : State) : Host.Outcome State Fault Refusal :=
  match i with
  | .fenc => exec .fenc s
  | .fdec => exec .fdec s
  | .penc => exec .penc s
  | .pdec => execPdecIn p s
  | .send => exec .send s
  | .recv => execRecvIn p s
  | .frameOff x => exec (.frameOff x) s
  | .frameAuto x => exec (.frameAuto x) s
  | .frameCool x => exec (.frameCool x) s
  | .frameDry x => exec (.frameDry x) s
  | .frameFanOnly x => exec (.frameFanOnly x) s
  | .frameEco x => exec (.frameEco x) s
  | .frameSleep x => exec (.frameSleep x) s

/-- One step of the build `p`. -/
def stepIn (p : Params) (s : State) : Host.Outcome State Fault Refusal := serve (execIn p) s

/-- The machine of the build `p`; `Sys2Proof.core` is that of `Config.params`. -/
def coreOf (p : Params) : Host.Core where
  State := State
  Fault := Fault
  Refusal := Refusal
  step := stepIn p
  reset := State.reset

end Sys2Proof.Machine
end

