-- ==== Sys2Proof/Safety.lean ====
section
/-! DEFINITION. The terms claims are made in: the canonical command domain and the equivalence of
commands (spec/30_encoding.md R94), what a result may look like, and the invariant every step keeps.
A run is safe when no step ends in a fault or a refusal. -/

namespace Sys2Proof.Machine

/-- The canonical command domain (`30_encoding.md` R94). -/
abbrev SemanticCommand.Canonical (c : SemanticCommand) : Prop :=
  c.mode ≠ .heat ∧ (c.mode ≠ .cool → c.preset = .none) ∧
    (c.mode = .cool → 62 ≤ c.temperature ∧ c.temperature ≤ 86)

/-- The modes for which the fan speed is meaningful (`30_encoding.md` R92). -/
def Mode.hasFan : Mode → Bool
  | .cool => true
  | .auto => true
  | .fanOnly => true
  | .off => false
  | .dry => false
  | .heat => false

/-- `c ≈ d`: agreement on the fields that are meaningful for the mode (`30_encoding.md` R94). -/
abbrev Equivalent (c : SemanticCommand) (d : DecodedCommand) : Prop :=
  d.mode = c.mode ∧ d.preset = c.preset ∧
    (c.mode.hasFan = true → d.fanSpeed = some c.fanSpeed) ∧
    (c.mode = .cool → d.temperature = some c.temperature)

/-- The frame with power byte `p`, fan/mode byte `fm` and value byte `t` that FENC lays out: device id
0x19, reserved bytes 0x00, and "(power_state + fan_mode + temp_or_mode_value) mod 256"
(`30_encoding.md` R80 to R88). -/
def frameOfBytes (p fm t : Byte) : Frame :=
  ⟨0x19, p, fm, 0x00, t, 0x00, 0x00, 0x00, BitVec.ofNat 8 ((p.toNat + fm.toNat + t.toNat) % 256)⟩

/-- "(power_state + fan_mode + temp_or_mode_value) mod 256" of a frame (`30_encoding.md` R88). -/
def sumOfFrame (F : Frame) : Nat := (F.powerState.toNat + F.fanMode.toNat + F.tempOrMode.toNat) % 256

/-- The mode nibble of a frame as a number, `F[2][3:0]` (`30_encoding.md` R85). -/
def modeNibbleOf (F : Frame) : Nat := F.fanMode.toNat % 16

/-- The fan codes 1, 2, 3 of `F[2][7:4]` (`30_encoding.md` R84). -/
def fanNumber : FanSpeed → Nat
  | .low => 1
  | .med => 2
  | .high => 3

/-- The mode codes of a command word (`30_encoding.md` R103, CW bits 2:0). -/
def modeNumber : Mode → Nat
  | .off => 0
  | .cool => 1
  | .auto => 2
  | .fanOnly => 3
  | .dry => 4
  | .heat => 5

/-- The preset codes of a command word (`30_encoding.md` R103, CW bits 6:5). -/
def presetNumber : Preset → Nat
  | .none => 0
  | .eco => 1
  | .sleep => 2

/-- The numeric codes of the failures (`60_exceptions.md` R215). -/
def failureNumber : Failure → Nat
  | .temperatureOutOfRange => 1
  | .unsupportedMode => 2
  | .badDeviceId => 3
  | .checksumMismatch => 4
  | .unknownModeNibble => 5
  | .headerMismatch => 6
  | .bitPatternMismatch => 7
  | .truncatedFrame => 8

/-- The failures an instruction can raise (`00_scope.md` R3, last column; `60_exceptions.md` R215, third
column). A frame form is a frame FDEC accepts, so it raises none. -/
def failuresOf : Instr → List Failure
  | .fenc => [.temperatureOutOfRange, .unsupportedMode]
  | .send => [.temperatureOutOfRange, .unsupportedMode]
  | .fdec => [.badDeviceId, .checksumMismatch, .unknownModeNibble]
  | .penc => []
  | .pdec => [.headerMismatch, .bitPatternMismatch, .truncatedFrame]
  | .recv =>
    [.headerMismatch, .bitPatternMismatch, .truncatedFrame, .badDeviceId, .checksumMismatch,
      .unknownModeNibble]
  | .frameOff _ => []
  | .frameAuto _ => []
  | .frameCool _ => []
  | .frameDry _ => []
  | .frameFanOnly _ => []
  | .frameEco _ => []
  | .frameSleep _ => []

/-- The fan speed that `F[2][7:4]` stands for on decode (`30_encoding.md` R84). -/
def fanOfNumber (n : Nat) : Option FanSpeed :=
  if n = 1 then some .low else if n = 2 then some .med else if n = 3 then some .high else none

/-- The fan/mode byte with this fan speed and mode nibble (`30_encoding.md` R83, R84). -/
def fanModeOf (f : FanSpeed) (nibble : Nat) : Byte := BitVec.ofNat 8 (16 * fanNumber f + nibble)

/-- The power byte of a command that is not OFF (`40_framecodec.md` R126). -/
def powerOf : Preset → Byte
  | .sleep => 0x81
  | .none => 0x80
  | .eco => 0x80

/-- The mode nibble of a COOL command (`30_encoding.md` R85). -/
def coolNibble : Preset → Nat
  | .none => 1
  | .eco => 5
  | .sleep => 6

/-- The number of one-bits of a frame (`41_pulse_encode.md` R167). -/
def onesOf (F : Frame) : Nat := (wirePositions.filter fun p => F.bit p.1 p.2).length

/-- `F` with bit `j` of `F[i]` flipped. -/
def flipBit (F : Frame) (i : Fin 9) (j : Fin 8) : Frame := F.setBit i j (!F.bit i j)

/-- The frame has the protocol's device id and a checksum that fits (`30_encoding.md` R99). -/
def ChecksPass (F : Frame) : Prop := F.deviceId = 0x19 ∧ F.checksum.toNat = sumOfFrame F

/-- The input side of the state is as before: the waiting requests and the operands taken. -/
def SamePorts (s t : State) : Prop :=
  t.requests = s.requests ∧ t.cmdIn = s.cmdIn ∧ t.frameIn = s.frameIn ∧ t.pulsesIn = s.pulsesIn

/-- The scan registers are as before. -/
def SameScan (s t : State) : Prop :=
  t.phase = s.phase ∧ t.byteIndex = s.byteIndex ∧ t.bitIndex = s.bitIndex ∧ t.pos = s.pos

/-- The emission position and the sequence emitted are as before. -/
def SameEmission (s t : State) : Prop := t.emitPos = s.emitPos ∧ t.emitted = s.emitted

/-- The header pair is inside its windows at TOL_PCT = 25 (`42_pulse_decode.md` R176). -/
def HeaderInWindow (m sp : Nat) : Prop := 6000 ≤ m ∧ m ≤ 10000 ∧ 3000 ≤ sp ∧ sp ≤ 5000

/-- A bit pair is read as `b` at TOL_PCT = 25 (`42_pulse_decode.md` R176). -/
def PairReads (b : Bool) (m sp : Nat) : Prop :=
  450 ≤ m ∧ m ≤ 750 ∧
    match b with
    | true => 1200 ≤ sp ∧ sp ≤ 2000
    | false => 413 ≤ sp ∧ sp ≤ 687

/-- The 147 durations of a frame: the pseudocode of `41_pulse_encode.md` R160, its two loops as lists. -/
def layoutOf (F : Frame) : PulseSequence :=
  [8000, 4000]
    ++ (List.finRange 9).flatMap (fun i =>
        ([7, 6, 5, 4, 3, 2, 1, 0] : List Nat).flatMap fun j =>
          [600, if (F.byte i).getLsbD j then 1600 else 550])
    ++ [600]

/-- The frame a command is laid out as, by its mode (`40_framecodec.md` R125 to R136). No frame for
HEAT, and none for COOL with a temperature outside 62 to 86. -/
def EncodesTo (c : SemanticCommand) (F : Frame) : Prop :=
  match c.mode with
  | .off => F = ⟨0x19, 0x00, 0x13, 0x00, 0x4F, 0x00, 0x00, 0x00, 0x62⟩
  | .fanOnly => F = frameOfBytes (powerOf c.preset) (fanModeOf c.fanSpeed 3) 0x4F
  | .auto => F = frameOfBytes (powerOf c.preset) (fanModeOf c.fanSpeed 0) 0x48
  | .dry => F = frameOfBytes (powerOf c.preset) 0x12 0x4F
  | .heat => False
  | .cool =>
    62 ≤ c.temperature ∧ c.temperature ≤ 86 ∧
      F = frameOfBytes (powerOf c.preset) (fanModeOf c.fanSpeed (coolNibble c.preset))
        (BitVec.ofNat 8 (0x3E + (c.temperature.toNat - 62)))

/-- The command a frame that passes FDEC's checks stands for: OFF where `F[1]` is 0x00, else the row of
its mode nibble (`40_framecodec.md` R143, R145, R146, R122). -/
def DecodesTo (F : Frame) (d : DecodedCommand) : Prop :=
  (F.powerState = 0x00 ∧ d = ⟨.off, .none, fanOfNumber (F.fanMode.toNat / 16), none⟩) ∨
  (F.powerState ≠ 0x00 ∧
    ((modeNibbleOf F = 0 ∧ d = ⟨.auto, .none, fanOfNumber (F.fanMode.toNat / 16), none⟩) ∨
      (modeNibbleOf F = 1 ∧
        d = ⟨.cool, .none, fanOfNumber (F.fanMode.toNat / 16),
          some (((F.tempOrMode.toNat : Int) - 0x3E) + 62)⟩) ∨
      (modeNibbleOf F = 2 ∧ d = ⟨.dry, .none, some .low, none⟩) ∨
      (modeNibbleOf F = 3 ∧ d = ⟨.fanOnly, .none, fanOfNumber (F.fanMode.toNat / 16), none⟩) ∨
      (modeNibbleOf F = 5 ∧
        d = ⟨.cool, .eco, fanOfNumber (F.fanMode.toNat / 16),
          some (((F.tempOrMode.toNat : Int) - 0x3E) + 62)⟩) ∨
      (modeNibbleOf F = 6 ∧
        d = ⟨.cool, .sleep, fanOfNumber (F.fanMode.toNat / 16),
          some (((F.tempOrMode.toNat : Int) - 0x3E) + 62)⟩)))

/-- What a decoded command can be (`30_encoding.md` R93; `40_framecodec.md` R145, R146). -/
def DecodedCommand.Legal (d : DecodedCommand) : Prop :=
  d.mode ≠ .heat ∧ (d.preset ≠ .none → d.mode = .cool) ∧ (d.mode = .dry → d.fanSpeed = some .low) ∧
    (d.mode ≠ .cool → d.temperature = none) ∧
    (d.mode = .cool → ∃ t : Int, d.temperature = some t ∧ 0 ≤ t ∧ t ≤ 255)

/-- What a presented result can be: a decoded command is legal, and an emitted sequence is the layout
of some frame (`41_pulse_encode.md` R160). Any nine bytes can be a frame result, since PDEC judges
none (`42_pulse_decode.md` R186). -/
def OutputLegal : Option Response → Prop
  | some (.ok (.command d)) => d.Legal
  | some (.ok (.pulses P)) => ∃ F : Frame, P = penc F
  | some (.ok (.frame _)) => True
  | some (.err _) => True
  | none => True

/-- The scan registers fit together (`42_pulse_decode.md` R179 to R184): with `n` bits decoded, the
position is the pair that holds bit `n`, or, after a failure, that pair or the one after it. -/
def ScanCoherent (s : State) : Prop :=
  match s.phase with
  | .expectHeader => s.byteIndex = 0 ∧ s.bitIndex = 7 ∧ s.pos = 0
  | .expectBit => s.pos = 2 + 2 * (8 * s.byteIndex.val + (7 - s.bitIndex.val))
  | .done => s.byteIndex = 8 ∧ s.bitIndex = 0 ∧ s.pos = 146
  | .failed =>
    s.pos = 0 ∨ s.pos = 2 + 2 * (8 * s.byteIndex.val + (7 - s.bitIndex.val)) ∨
      s.pos = 4 + 2 * (8 * s.byteIndex.val + (7 - s.bitIndex.val))

/-- The emission is at its start, or it has ended and the whole layout of a frame stands emitted
(`10_state.md` R25). -/
def EmissionCoherent (s : State) : Prop :=
  (s.emitPos = 0 ∧ s.emitted = []) ∨ (s.emitPos = 147 ∧ ∃ F : Frame, s.emitted = penc F)

/-- The invariant of the machine between two steps. -/
def State.Inv (s : State) : Prop :=
  s.busy = false ∧ ScanCoherent s ∧ EmissionCoherent s ∧ OutputLegal s.out

end Sys2Proof.Machine
end

