-- ==== Sys2Proof/Certificates/Slice0/Obligations.lean ====
section
/-! DEFINITION. The statements for the provers. Each docstring names the rule of spec/ it formalises,
or, for a derived statement, the sections and log entries it rests on. -/

open Sys2Proof Sys2Proof.Machine

/-! ## Reset, the step, the invariant -/

/-- `10_state.md` R34, the values it gives for reset (not `F`, which it leaves unspecified). -/
def Obligations.ResetIsIdleWithTheScanAtItsStart : Prop :=
  State.reset.busy = false ∧ State.reset.out = none ∧ State.reset.phase = .expectHeader ∧
    State.reset.byteIndex = 0 ∧ State.reset.bitIndex = 7 ∧ State.reset.pos = 0 ∧
    State.reset.emitPos = 0 ∧ State.reset.status = none

/-- The invariant of Safety.lean holds after reset (`10_state.md` R34). That the emitted sequence is then
empty is the model's choice, log 10: the spec gives it no reset value. -/
def Obligations.ResetMeetsTheInvariant : Prop := State.reset.Inv

/-- From every state that meets the invariant, a step gives a state that meets it: idle, scan
registers that fit together, a whole emission, a legal result (`42_pulse_decode.md` R179 to R184,
`10_state.md` R25, `30_encoding.md` R93). That the scan registers and the emission (position 147, the
layout emitted) are kept between two operations is the model's choice, log 11. -/
def Obligations.EveryStepKeepsTheInvariant : Prop :=
  ∀ s t : State, s.Inv → step s = .next t → t.Inv

/-- A step serves the oldest waiting request: it is taken with its operands, and what its word decodes
to is executed (`70_reset_and_hazards.md` R254, `10_state.md` R31). The model's choices in it: waiting in
order (log 8), a bare frame as an instruction (log 4), all three operand ports latched (log 17). -/
def Obligations.StepRunsTheDecodedInstruction : Prop :=
  ∀ (s : State) (r : Request) (rest : List Request) (i : Instr),
    s.requests = r :: rest → decodeWord r.word = .ok i →
      step s = exec i { s with requests := rest, busy := true, cmdIn := r.cmd, frameIn := r.frame,
                               pulsesIn := r.pulses }

/-- With no request waiting a step changes nothing (`60_exceptions.md` R234; log 8). -/
def Obligations.StepWithNoRequestChangesNothing : Prop :=
  ∀ s : State, s.requests = [] → step s = .next s

/-- A reserved operation code is refused: no operation starts, no result is presented
(`30_encoding.md` R102, D32). That the outputs then show no result is the model's choice, log 7; that the
request's operands are latched all the same is log 17. -/
def Obligations.ReservedOperationCodeIsRefused : Prop :=
  ∀ (s : State) (r : Request) (rest : List Request) (code : BitVec 3),
    s.requests = r :: rest → r.word = .op3 code → (code = 6 ∨ code = 7) →
      step s = .next { s with requests := rest, busy := false, cmdIn := r.cmd, frameIn := r.frame,
                              pulsesIn := r.pulses, out := none }

/-- Every request inside the operand types ends in a result, `Ok` or `Err`, and the block is idle
again (`00_scope.md` R10, `60_exceptions.md` R236). Only FENC (code 0) and SEND (code 4) read the command
operand, so only there it must stand for a command. R236 speaks of the six operations: that a bare frame is
a request too is the model's choice, log 4, and that exactly the oldest request is taken is log 8. -/
def Obligations.EveryTypedRequestEndsInAResult : Prop :=
  ∀ (s : State) (r : Request) (rest : List Request),
    s.requests = r :: rest → r.word ≠ .op3 6 → r.word ≠ .op3 7 →
    (r.word = .op3 0 ∨ r.word = .op3 4 → ∃ c : SemanticCommand, r.cmd.command = some c) →
      ∃ (t : State) (o : Response),
        step s = .next t ∧ t.out = some o ∧ t.busy = false ∧ t.requests = rest

/-- The result of a request is a function of that request alone: of nothing an earlier operation left,
and of nothing else in the state (`10_state.md` R20, `20_memory.md` R62 item 1). That a refused request
presents no result, rather than leaving the last one, is the model's choice, log 7; so are bare frames
(log 4) and the order of waiting requests (log 8). -/
def Obligations.ResultDependsOnTheRequestAlone : Prop :=
  ∃ respond : Request → Option Response,
    ∀ (s : State) (r : Request) (rest : List Request), s.requests = r :: rest →
      ∃ t : State, step s = .next t ∧ t.out = respond r ∧ t.requests = rest

/-- Two requests served in either order give the same two results (`20_memory.md` R62 item 2). The order
in which waiting requests are served is the model's choice, log 8. Refused requests are among them (a
reserved operation or command code): that one presents no result, rather than leaving the last one, is
the model's choice, log 7. So are bare frames, log 4. -/
def Obligations.EitherOrderGivesTheSameResults : Prop :=
  ∀ (s : State) (a b : Request) (rest : List Request),
    ∃ t u v w : State,
      step { s with requests := a :: b :: rest } = .next t ∧ step t = .next u ∧
      step { s with requests := b :: a :: rest } = .next v ∧ step v = .next w ∧
      t.out = w.out ∧ u.out = v.out

/-! ## Encodings -/

/-- Words written out from the spec: the codes of R102, the OFF frame of R89, frames of
`95_test_vectors.md` G-1, G-2, G-3. That an operation code is given as a word of 8 bits is log 6. -/
def Obligations.SpecWordsDecodeToTheirInstructions : Prop :=
  decodeTableWord 8 0 = some .fenc ∧ decodeTableWord 8 1 = some .fdec ∧
  decodeTableWord 8 2 = some .penc ∧ decodeTableWord 8 3 = some .pdec ∧
  decodeTableWord 8 4 = some .send ∧ decodeTableWord 8 5 = some .recv ∧
  decodeTableWord 8 6 = none ∧ decodeTableWord 8 7 = none ∧
  decodeTableWord 72 0x190013004F00000062 = some (.frameOff ⟨0x13, 0, 0x4F, 0, 0, 0⟩) ∧
  decodeTableWord 72 0x198031004F00000000 = some (.frameCool ⟨0x80, 3, 0, 0x4F, 0, 0, 0⟩) ∧
  decodeTableWord 72 0x1980250048000000ED = some (.frameEco ⟨0x80, 2, 0, 0x48, 0, 0, 0⟩) ∧
  decodeTableWord 72 0x198116004B000000E2 = some (.frameSleep ⟨0x81, 1, 0, 0x4B, 0, 0, 0⟩)

/-- No bit of an instruction is dropped by encoding it. -/
def Obligations.DecodeOfEncodeIsTheInstruction : Prop :=
  ∀ i : Instr, i.wellFormed = true → decode (encode i) = .ok i

/-- A byte string that decodes is the encoding of the instruction it decodes to, which is well-formed:
every instruction has one encoding. The bytes of an operation code (one byte, upper bits zero) are the
model's choice, log 6; R102 gives three lines. -/
def Obligations.EncodeOfDecodeIsTheWord : Prop :=
  ∀ (bs : List Byte) (i : Instr), decode bs = .ok i → encode i = bs ∧ i.wellFormed = true

/-- The frames that are read as a frame form are those FDEC accepts: device id 0x19, a matching
checksum, and power byte 0x00 or a mode nibble of {0, 1, 2, 3, 5, 6} (`30_encoding.md` R91, R100; log 4,
log 5 for the bare frame). -/
def Obligations.FrameWordDecodesExactlyWhenFdecAccepts : Prop :=
  ∀ (s : State) (F : Frame), s.frameIn = F →
    ((∃ i : Instr, decodeWord (.frame72 F) = .ok i) ↔
      ChecksPass F ∧ (F.powerState = 0x00 ∨ modeNibbleOf F ∈ [0, 1, 2, 3, 5, 6])) ∧
    ((∃ (t : State) (d : DecodedCommand),
        exec .fdec s = .next t ∧ t.out = some (.ok (.command d))) ↔
      ChecksPass F ∧ (F.powerState = 0x00 ∨ modeNibbleOf F ∈ [0, 1, 2, 3, 5, 6]))

/-- The command word of a request (`30_encoding.md` R103): a word stands for exactly the command whose
mode, fan speed, preset and temperature have the numbers of the table at their bits, so bit 7 is ignored;
every command with an 8-bit temperature has a word; and a word stands for no command exactly when a code
in it is reserved or the fan code is 0. -/
def Obligations.CommandWordCarriesTheCommand : Prop :=
  (∀ c : SemanticCommand, 0 ≤ c.temperature → c.temperature ≤ 255 →
    commandOfWord (wordOfCommand c) = some c ∧
    commandOfWord (wordOfCommand c ^^^ 0x0080) = some c) ∧
  (∀ (cw : BitVec 16) (c : SemanticCommand),
    commandOfWord cw = some c ↔
      (modeNumber c.mode = cw.toNat % 8 ∧ fanNumber c.fanSpeed = cw.toNat / 8 % 4 ∧
        presetNumber c.preset = cw.toNat / 32 % 4 ∧ c.temperature = ((cw.toNat / 256 : Nat) : Int))) ∧
  ∀ cw : BitVec 16,
    commandOfWord cw = none ↔
      (6 ≤ cw.toNat % 8 ∨ cw.toNat / 8 % 4 = 0 ∨ cw.toNat / 32 % 4 = 3)

/-- The command word of a result: the numbers of the table at their bits, fan code 0 for UNSET, temperature field and
temp_present 0 for ABSENT (`30_encoding.md` R103). -/
def Obligations.ResultWordCarriesTheDecodedCommand : Prop :=
  ∀ d : DecodedCommand, d.Legal →
    (wordOfDecoded d).toNat =
      modeNumber d.mode
        + 8 * (match d.fanSpeed with
                | some f => fanNumber f
                | none => 0)
        + 32 * presetNumber d.preset
        + (match d.temperature with
            | some t => 128 + 256 * t.toNat
            | none => 0)

/-! ## FENC -/

/-- `40_framecodec.md` R125. -/
def Obligations.FencOffBuildsTheOneOffFrame : Prop :=
  ∀ (s : State) (c : SemanticCommand), s.cmdIn.command = some c → c.mode = .off →
    exec .fenc s = .next { s with
      F := ⟨0x19, 0x00, 0x13, 0x00, 0x4F, 0x00, 0x00, 0x00, 0x62⟩
      out := some (.ok (.frame ⟨0x19, 0x00, 0x13, 0x00, 0x4F, 0x00, 0x00, 0x00, 0x62⟩))
      busy := false }

/-- `40_framecodec.md` R129, R130, R131: the three forms with a sentinel, under any preset
(R126, R139) and any temperature (R138). -/
def Obligations.FencSentinelModesBuildTheirFrames : Prop :=
  ∀ (s : State) (c : SemanticCommand), s.cmdIn.command = some c →
    (c.mode = .fanOnly →
      exec .fenc s = .next { s with
        F := frameOfBytes (powerOf c.preset) (fanModeOf c.fanSpeed 3) 0x4F
        out := some (.ok (.frame (frameOfBytes (powerOf c.preset) (fanModeOf c.fanSpeed 3) 0x4F)))
        busy := false }) ∧
    (c.mode = .auto →
      exec .fenc s = .next { s with
        F := frameOfBytes (powerOf c.preset) (fanModeOf c.fanSpeed 0) 0x48
        out := some (.ok (.frame (frameOfBytes (powerOf c.preset) (fanModeOf c.fanSpeed 0) 0x48)))
        busy := false }) ∧
    (c.mode = .dry →
      exec .fenc s = .next { s with
        F := frameOfBytes (powerOf c.preset) 0x12 0x4F
        out := some (.ok (.frame (frameOfBytes (powerOf c.preset) 0x12 0x4F)))
        busy := false })

/-- `40_framecodec.md` R133, R134, R135: COOL with each preset, temperature in 62 to 86. -/
def Obligations.FencCoolBuildsItsFrame : Prop :=
  ∀ (s : State) (c : SemanticCommand), s.cmdIn.command = some c → c.mode = .cool →
    62 ≤ c.temperature → c.temperature ≤ 86 →
      exec .fenc s = .next { s with
        F := frameOfBytes (powerOf c.preset) (fanModeOf c.fanSpeed (coolNibble c.preset))
          (BitVec.ofNat 8 (0x3E + (c.temperature.toNat - 62)))
        out := some (.ok (.frame
          (frameOfBytes (powerOf c.preset) (fanModeOf c.fanSpeed (coolNibble c.preset))
            (BitVec.ofNat 8 (0x3E + (c.temperature.toNat - 62))))))
        busy := false }

/-- `40_framecodec.md` R132: HEAT fails whatever the other fields, and no frame is produced. -/
def Obligations.FencHeatFailsWithNoFrame : Prop :=
  ∀ (s : State) (c : SemanticCommand), s.cmdIn.command = some c → c.mode = .heat →
    exec .fenc s = .next { s with out := some (.err .unsupportedMode), busy := false }

/-- `60_exceptions.md` R216: when TemperatureOutOfRange is raised, that nothing else raises it, that 62
and 86 succeed, and that no received temperature byte is a failure. -/
def Obligations.TemperatureOutOfRangeIsRaisedExactlyByCool : Prop :=
  (∀ (s : State) (i : Instr),
    (∃ t : State, exec i s = .next t ∧ t.out = some (.err .temperatureOutOfRange)) ↔
      (i = .fenc ∨ i = .send) ∧
        ∃ c : SemanticCommand, s.cmdIn.command = some c ∧ c.mode = .cool ∧
          (c.temperature < 62 ∨ 86 < c.temperature)) ∧
  (∀ (s : State) (c : SemanticCommand), s.cmdIn.command = some c → c.mode = .cool →
    c.temperature = 62 ∨ c.temperature = 86 →
      ∃ (t : State) (F : Frame), exec .fenc s = .next t ∧ t.out = some (.ok (.frame F))) ∧
  ∀ s : State, ChecksPass s.frameIn → modeNibbleOf s.frameIn ∈ [1, 5, 6] →
    ∃ (t : State) (d : DecodedCommand), exec .fdec s = .next t ∧ t.out = some (.ok (.command d))

/-- `60_exceptions.md` R217: when UnsupportedMode is raised, that nothing else raises it, and that no
frame decodes to HEAT. -/
def Obligations.UnsupportedModeIsRaisedExactlyByHeat : Prop :=
  ∀ (s : State) (i : Instr),
    ((∃ t : State, exec i s = .next t ∧ t.out = some (.err .unsupportedMode)) ↔
      (i = .fenc ∨ i = .send) ∧
        ∃ c : SemanticCommand, s.cmdIn.command = some c ∧ c.mode = .heat) ∧
    ∀ (t : State) (d : DecodedCommand),
      exec i s = .next t → t.out = some (.ok (.command d)) → d.mode ≠ .heat

/-- A command word with a reserved mode or preset code or fan code 0 is refused by FENC and SEND: no
register changes and no result is presented (`30_encoding.md` R103, D32; log 7). -/
def Obligations.ReservedCommandCodesAreRefused : Prop :=
  ∀ (s : State) (cw : BitVec 16), s.cmdIn = .word cw →
    (6 ≤ cw.toNat % 8 ∨ cw.toNat / 8 % 4 = 0 ∨ cw.toNat / 32 % 4 = 3) →
      exec .fenc s = .next { s with out := none, busy := false } ∧
      exec .send s = .next { s with out := none, busy := false }

/-- `30_encoding.md` R90, its list: the values `F[2]` takes in the frames FENC produces. -/
def Obligations.FencFanModeBytesAreTheSixteen : Prop :=
  ∀ b : Byte,
    (∃ (s t : State) (F : Frame),
        exec .fenc s = .next t ∧ t.out = some (.ok (.frame F)) ∧ F.fanMode = b) ↔
      b.toNat ∈ [0x10, 0x20, 0x30, 0x11, 0x21, 0x31, 0x12, 0x13, 0x23, 0x33, 0x15, 0x25, 0x35,
        0x16, 0x26, 0x36]

/-- `40_framecodec.md` R149: the checksum of every frame FENC produces, and that FDEC raises neither
ChecksumMismatch nor BadDeviceId on one. -/
def Obligations.FencFramesCarryTheirChecksum : Prop :=
  ∀ (s t : State) (F : Frame), exec .fenc s = .next t → t.out = some (.ok (.frame F)) →
    F.checksum.toNat =
        (F.powerState.toNat + F.fanMode.toNat + F.tempOrMode.toNat) % 256 ∧
      ∀ u v : State, u.frameIn = F → exec .fdec u = .next v →
        v.out ≠ some (.err .checksumMismatch) ∧ v.out ≠ some (.err .badDeviceId)

/-! ## FDEC -/

/-- `60_exceptions.md` R218, R219, R220 in the order of R227: which failure FDEC raises on which frame,
with the frame loaded and nothing else changed. -/
def Obligations.FdecRaisesItsFailuresInOrder : Prop :=
  ∀ s : State,
    (s.frameIn.deviceId ≠ 0x19 →
      exec .fdec s = .next { s with F := s.frameIn, out := some (.err .badDeviceId), busy := false }) ∧
    (s.frameIn.deviceId = 0x19 → s.frameIn.checksum.toNat ≠ sumOfFrame s.frameIn →
      exec .fdec s =
        .next { s with F := s.frameIn, out := some (.err .checksumMismatch), busy := false }) ∧
    (ChecksPass s.frameIn → s.frameIn.powerState ≠ 0x00 →
      modeNibbleOf s.frameIn ∉ [0, 1, 2, 3, 5, 6] →
      exec .fdec s =
        .next { s with F := s.frameIn, out := some (.err .unknownModeNibble), busy := false })

/-- `40_framecodec.md` R143: a power byte of 0x00 is OFF whatever `F[2]` and `F[4]` hold. -/
def Obligations.FdecPowerOffIsOffUnconditionally : Prop :=
  ∀ s : State, ChecksPass s.frameIn → s.frameIn.powerState = 0x00 →
    exec .fdec s = .next { s with
      F := s.frameIn
      out := some (.ok (.command
        ⟨.off, .none, fanOfNumber (s.frameIn.fanMode.toNat / 16), none⟩))
      busy := false }

/-- `40_framecodec.md` R145, R146: the decode mapping, and the fan speed. The temperature is
`(F[4] - 0x3E) + 62` on integers (R122). -/
def Obligations.FdecMapsEachModeNibble : Prop :=
  ∀ (s : State) (d : DecodedCommand), ChecksPass s.frameIn → s.frameIn.powerState ≠ 0x00 →
    ((modeNibbleOf s.frameIn = 0 ∧
        d = ⟨.auto, .none, fanOfNumber (s.frameIn.fanMode.toNat / 16), none⟩) ∨
      (modeNibbleOf s.frameIn = 1 ∧
        d = ⟨.cool, .none, fanOfNumber (s.frameIn.fanMode.toNat / 16),
          some (((s.frameIn.tempOrMode.toNat : Int) - 0x3E) + 62)⟩) ∨
      (modeNibbleOf s.frameIn = 2 ∧ d = ⟨.dry, .none, some .low, none⟩) ∨
      (modeNibbleOf s.frameIn = 3 ∧
        d = ⟨.fanOnly, .none, fanOfNumber (s.frameIn.fanMode.toNat / 16), none⟩) ∨
      (modeNibbleOf s.frameIn = 5 ∧
        d = ⟨.cool, .eco, fanOfNumber (s.frameIn.fanMode.toNat / 16),
          some (((s.frameIn.tempOrMode.toNat : Int) - 0x3E) + 62)⟩) ∨
      (modeNibbleOf s.frameIn = 6 ∧
        d = ⟨.cool, .sleep, fanOfNumber (s.frameIn.fanMode.toNat / 16),
          some (((s.frameIn.tempOrMode.toNat : Int) - 0x3E) + 62)⟩)) →
    exec .fdec s = .next { s with
      F := s.frameIn
      out := some (.ok (.command d))
      busy := false }

/-- The bytes `F[3]`, `F[5]`, `F[6]`, `F[7]` have no effect on FDEC's result (`40_framecodec.md` R147;
`30_encoding.md` R99 item 3). -/
def Obligations.FdecDoesNotReadTheReservedBytes : Prop :=
  ∀ (s u t v : State),
    s.frameIn.deviceId = u.frameIn.deviceId → s.frameIn.powerState = u.frameIn.powerState →
    s.frameIn.fanMode = u.frameIn.fanMode → s.frameIn.tempOrMode = u.frameIn.tempOrMode →
    s.frameIn.checksum = u.frameIn.checksum →
    exec .fdec s = .next t → exec .fdec u = .next v → t.out = v.out

/-- `40_framecodec.md` R151: what FDEC makes of a single changed bit of a frame it accepts, and the
rule's example of two changes that cancel. -/
def Obligations.SingleBitChangesAreDetectedWhereTheChecksReach : Prop :=
  (∀ (s t : State) (d : DecodedCommand) (i : Fin 9) (j : Fin 8),
    exec .fdec s = .next t → t.out = some (.ok (.command d)) →
      ∃ u : State, exec .fdec { s with frameIn := flipBit s.frameIn i j } = .next u ∧
        (i.val ∈ [1, 2, 4, 8] → u.out = some (.err .checksumMismatch)) ∧
        (i.val = 0 → u.out = some (.err .badDeviceId)) ∧
        (i.val ∈ [3, 5, 6, 7] → u.out = t.out)) ∧
  ∀ s : State, s.frameIn = ⟨0x19, 0x80, 0x21, 0x00, 0x5F, 0x00, 0x00, 0x00, 0x00⟩ →
    exec .fdec s = .next { s with
      F := s.frameIn
      out := some (.ok (.command ⟨.cool, .none, some .med, some 95⟩))
      busy := false }

/-- `40_framecodec.md` R148: for every command of the canonical domain FENC answers a frame, and FDEC
of it answers an equivalent command; for DRY and OFF the fan speed comes back LOW. -/
def Obligations.FrameRoundTripReproducesTheCommand : Prop :=
  ∀ (s u : State) (c : SemanticCommand), s.cmdIn.command = some c → c.Canonical →
    ∃ (t : State) (F : Frame), exec .fenc s = .next t ∧ t.out = some (.ok (.frame F)) ∧
      (u.frameIn = F →
        ∃ (v : State) (d : DecodedCommand), exec .fdec u = .next v ∧
          v.out = some (.ok (.command d)) ∧ Equivalent c d ∧
          (c.mode = .dry ∨ c.mode = .off → d.fanSpeed = some .low))

/-! ## PENC -/

/-- The sequence PENC emits for any nine bytes, and what it leaves unchanged (`41_pulse_encode.md` R160,
`10_state.md` R23). That the emission position is then 147 and the emitted sequence is kept is the
model's choice, log 11. -/
def Obligations.PencEmitsTheLayoutOfItsFrame : Prop :=
  ∀ s : State, ∃ t : State, exec .penc s = .next t ∧
    t.out = some (.ok (.pulses (layoutOf s.frameIn))) ∧ t.emitted = layoutOf s.frameIn ∧
    t.emitPos = 147 ∧ t.F = s.frameIn ∧ t.busy = false ∧ SamePorts s t ∧ SameScan s t

/-- `41_pulse_encode.md` R161, R162, R163 and the length of R166: every element by its index. -/
def Obligations.PencElementsFollowTheMap : Prop :=
  ∀ (s t : State) (P : PulseSequence), exec .penc s = .next t → t.out = some (.ok (.pulses P)) →
    P.length = 147 ∧ P[0]? = some 8000 ∧ P[1]? = some 4000 ∧ P[146]? = some 600 ∧
    ∀ n : Nat, n < 72 →
      P[2 + 2 * n]? = some 600 ∧
      P[3 + 2 * n]? = some (if (s.frameIn.bytes[n / 8]?.getD 0).getLsbD (7 - n % 8) then 1600 else 550)

/-- `41_pulse_encode.md` R164, and that the pulse port can carry every element (`20_memory.md` R52). -/
def Obligations.PencEmitsExactConstantsOnly : Prop :=
  ∀ (s t : State) (P : PulseSequence), exec .penc s = .next t → t.out = some (.ok (.pulses P)) →
    (∀ d ∈ P, d = 8000 ∨ d = 4000 ∨ d = 600 ∨ d = 1600 ∨ d = 550) ∧ fitsPort Config.durW P = true

/-- `41_pulse_encode.md` R167: the air time. -/
def Obligations.PencTotalDurationCountsTheOnes : Prop :=
  (∀ (s t : State) (P : PulseSequence), exec .penc s = .next t → t.out = some (.ok (.pulses P)) →
    P.sum = 95400 + 1050 * onesOf s.frameIn ∧ 95400 ≤ P.sum ∧ P.sum ≤ 171000) ∧
  onesOf ⟨0x19, 0x00, 0x13, 0x00, 0x4F, 0x00, 0x00, 0x00, 0x62⟩ = 14 ∧
  onesOf ⟨0x19, 0x80, 0x31, 0x00, 0x4F, 0x00, 0x00, 0x00, 0x00⟩ = 12

/-! ## PDEC -/

/-- `42_pulse_decode.md` R176: the five windows at TOL_PCT = 25. -/
def Obligations.WindowsAtTwentyFivePerCent : Prop :=
  ∀ d : Nat,
    (matchDur 25 d 8000 = true ↔ 6000 ≤ d ∧ d ≤ 10000) ∧
    (matchDur 25 d 4000 = true ↔ 3000 ≤ d ∧ d ≤ 5000) ∧
    (matchDur 25 d 600 = true ↔ 450 ≤ d ∧ d ≤ 750) ∧
    (matchDur 25 d 1600 = true ↔ 1200 ≤ d ∧ d ≤ 2000) ∧
    (matchDur 25 d 550 = true ↔ 413 ≤ d ∧ d ≤ 687)

/-- `42_pulse_decode.md` R177: no space matches both windows exactly for TOL_PCT up to 48, the built
tolerance is in that range, and at 0 only the nominal value matches. -/
def Obligations.SpaceWindowsAreDisjointUpToFortyEight : Prop :=
  (∀ tol : Nat,
    (∀ d : Nat, ¬(matchDur tol d 1600 = true ∧ matchDur tol d 550 = true)) ↔ tol ≤ 48) ∧
  Config.tolPct ≤ 48 ∧ ∀ d nom : Nat, matchDur 0 d nom = true ↔ d = nom

/-- `42_pulse_decode.md` R190: the function of R178 and the machine of R179 to R185 agree, at every
tolerance and on every sequence. -/
def Obligations.ScanMachineAgreesWithTheFunction : Prop :=
  ∀ (tol : Nat) (P : PulseSequence),
    (∀ F : Frame, pdec tol P = .ok F ↔ (scanAll tol P).phase = .done ∧ (scanAll tol P).F = F) ∧
    (∀ k : Failure, pdec tol P = .error k ↔
      (scanAll tol P).phase = .failed ∧ (scanAll tol P).failure = some k)

/-- `42_pulse_decode.md` R191, R179: after 73 steps the scan has ended, and further steps change
nothing. -/
def Obligations.ScanEndsWithinSeventyThreeSteps : Prop :=
  ∀ (tol n : Nat) (P : PulseSequence),
    ((scanRun tol P 73 scanStart).phase = .done ∨ (scanRun tol P 73 scanStart).phase = .failed) ∧
    scanRun tol P (73 + n) scanStart = scanRun tol P 73 scanStart

/-- `42_pulse_decode.md` R183: where the scan registers stand after `n` bits. -/
def Obligations.ScanRegistersCountTheBits : Prop :=
  ∀ (tol n : Nat) (P : PulseSequence), (scanRun tol P (n + 1) scanStart).phase = .expectBit →
    n < 72 ∧ (scanRun tol P (n + 1) scanStart).byteIndex.val = n / 8 ∧
      (scanRun tol P (n + 1) scanStart).bitIndex.val = 7 - n % 8 ∧
      (scanRun tol P (n + 1) scanStart).pos = 2 + 2 * n

/-- PDEC on a sequence whose first 146 elements are inside their windows at TOL_PCT = 25: it answers
the frame whose bits the spaces spell, and the scan ends in Done at element 146
(`42_pulse_decode.md` R181, R182, R184, R187, R192; log 1 for the 25). -/
def Obligations.PdecReadsTheFrameTheSpacesSpell : Prop :=
  ∀ (s : State) (F : Frame) (m sp : Nat),
    s.pulsesIn[0]? = some m → s.pulsesIn[1]? = some sp → HeaderInWindow m sp →
    (∀ n : Nat, n < 72 → ∃ a b : Nat, s.pulsesIn[2 + 2 * n]? = some a ∧
      s.pulsesIn[3 + 2 * n]? = some b ∧ PairReads (F.wireBit n) a b) →
    ∃ t : State, exec .pdec s = .next t ∧ t.out = some (.ok (.frame F)) ∧ t.F = F ∧
      t.phase = .done ∧ t.pos = 146 ∧ t.busy = false ∧ SamePorts s t ∧ SameEmission s t

/-- `42_pulse_decode.md` R180, R221: the header pair outside its windows is HeaderMismatch, and a
sequence of fewer than two elements is TruncatedFrame before any comparison (R185). -/
def Obligations.PdecJudgesTheHeaderPair : Prop :=
  ∀ s : State,
    (s.pulsesIn.length < 2 →
      ∃ t : State, exec .pdec s = .next t ∧ t.out = some (.err .truncatedFrame) ∧
        t.phase = .failed ∧ t.busy = false ∧ SamePorts s t ∧ SameEmission s t) ∧
    (∀ m sp : Nat, s.pulsesIn[0]? = some m → s.pulsesIn[1]? = some sp → ¬HeaderInWindow m sp →
      ∃ t : State, exec .pdec s = .next t ∧ t.out = some (.err .headerMismatch) ∧
        t.phase = .failed ∧ t.busy = false ∧ SamePorts s t ∧ SameEmission s t)

/-- The scan stops at the first bad pair: the header and the pairs before `n` are good and pair `n` is
present and reads as no bit (`42_pulse_decode.md` R181, R188; `60_exceptions.md` R222). -/
def Obligations.PdecStopsAtTheFirstBadPair : Prop :=
  ∀ (s : State) (n m sp a b : Nat), n < 72 →
    s.pulsesIn[0]? = some m → s.pulsesIn[1]? = some sp → HeaderInWindow m sp →
    (∀ k : Nat, k < n → ∃ (x y : Nat) (bit : Bool), s.pulsesIn[2 + 2 * k]? = some x ∧
      s.pulsesIn[3 + 2 * k]? = some y ∧ PairReads bit x y) →
    s.pulsesIn[2 + 2 * n]? = some a → s.pulsesIn[3 + 2 * n]? = some b →
    ¬PairReads true a b → ¬PairReads false a b →
      ∃ t : State, exec .pdec s = .next t ∧ t.out = some (.err .bitPatternMismatch) ∧
        t.phase = .failed ∧ t.busy = false ∧ SamePorts s t ∧ SameEmission s t

/-- In every legal build, a sequence that is correct as far as its whole pairs go decodes to the
frame it follows when it has 146 elements or more, and fails with TruncatedFrame exactly when it has
fewer: the function and the instruction of the build alike (`42_pulse_decode.md` R185, R192;
`60_exceptions.md` R223; `70_reset_and_hazards.md` R253). -/
def Obligations.PdecDecodesOrIsTruncatedByLength : Prop :=
  ∀ (p : Params) (s : State) (F : Frame), p.Legal →
    (∀ k d : Nat, k < 146 → k < 2 * (s.pulsesIn.length / 2) → s.pulsesIn[k]? = some d →
      matchDur p.tolPct d ((penc F)[k]?.getD 0) = true) →
    (146 ≤ s.pulsesIn.length →
      pdec p.tolPct s.pulsesIn = .ok F ∧
        ∃ t : State, execIn p .pdec s = .next t ∧ t.out = some (.ok (.frame F)) ∧ t.phase = .done) ∧
    (s.pulsesIn.length ≤ 145 →
      pdec p.tolPct s.pulsesIn = .error .truncatedFrame ∧
        ∃ t : State, execIn p .pdec s = .next t ∧ t.out = some (.err .truncatedFrame) ∧
          t.phase = .failed)

/-- `42_pulse_decode.md` R187: elements 146 and up are never read. -/
def Obligations.PdecIgnoresTheElementsAfterTheLastBit : Prop :=
  ∀ (s u : State), 146 ≤ s.pulsesIn.length → u.pulsesIn = s.pulsesIn.take 146 →
    ∃ t v : State, exec .pdec s = .next t ∧ exec .pdec u = .next v ∧
      t.out = v.out ∧ t.F = v.F ∧ t.phase = v.phase ∧ t.pos = v.pos

/-- `41_pulse_encode.md` R168: PDEC of what PENC emits is the frame, for any nine bytes and at every
legal tolerance. -/
def Obligations.PdecInvertsPenc : Prop :=
  (∀ (tol : Nat) (F : Frame), tol ≤ 48 → pdec tol (penc F) = .ok F) ∧
  ∀ (s u : State), ∃ (t : State) (P : PulseSequence),
    exec .penc s = .next t ∧ t.out = some (.ok (.pulses P)) ∧
      (u.pulsesIn = P →
        ∃ v : State, exec .pdec u = .next v ∧ v.out = some (.ok (.frame s.frameIn)))

/-! ## The Driver -/

/-- `43_driver.md` R201: SEND is PENC after FENC, and on a failure no pulse is produced. -/
def Obligations.SendIsPencAfterFenc : Prop :=
  ∀ s : State, ∃ t u : State, exec .fenc s = .next t ∧ exec .send s = .next u ∧
    (∀ k : Failure, t.out = some (.err k) →
      u.out = some (.err k) ∧ SameEmission s u ∧ u.F = s.F) ∧
    (∀ F : Frame, t.out = some (.ok (.frame F)) →
      ∃ v : State, exec .penc { s with frameIn := F } = .next v ∧ u.out = v.out ∧ u.F = F) ∧
    SamePorts s u ∧ SameScan s u ∧ u.busy = false

/-- SEND on any command that FENC lays out as a frame: the durations of that frame
(`43_driver.md` R200, `40_framecodec.md` R124, `41_pulse_encode.md` R160). That the emission position is then
147 and the emitted sequence is kept is the model's choice, log 11. -/
def Obligations.SendEmitsTheLayoutOfItsCommand : Prop :=
  ∀ (s : State) (c : SemanticCommand) (F : Frame), s.cmdIn.command = some c → EncodesTo c F →
    ∃ t : State, exec .send s = .next t ∧ t.out = some (.ok (.pulses (layoutOf F))) ∧ t.F = F ∧
      t.emitPos = 147 ∧ t.emitted = layoutOf F ∧ t.busy = false ∧ SamePorts s t ∧ SameScan s t

/-- RECV of a sequence whose first 146 elements are inside their windows at TOL_PCT = 25 and spell a
frame that FDEC accepts: the command of that frame (`43_driver.md` R202, `42_pulse_decode.md` R176,
R182, R187, `40_framecodec.md` R140). -/
def Obligations.RecvDeliversTheCommandTheSpacesSpell : Prop :=
  ∀ (s : State) (F : Frame) (d : DecodedCommand) (m sp : Nat), ChecksPass F → DecodesTo F d →
    s.pulsesIn[0]? = some m → s.pulsesIn[1]? = some sp → HeaderInWindow m sp →
    (∀ n : Nat, n < 72 → ∃ a b : Nat, s.pulsesIn[2 + 2 * n]? = some a ∧
      s.pulsesIn[3 + 2 * n]? = some b ∧ PairReads (F.wireBit n) a b) →
    ∃ t : State, exec .recv s = .next t ∧ t.out = some (.ok (.command d)) ∧ t.F = F ∧
      t.phase = .done ∧ t.pos = 146 ∧ t.busy = false ∧ SamePorts s t ∧ SameEmission s t

/-- `43_driver.md` R203: RECV is FDEC after PDEC, and a failure of PDEC ends it. -/
def Obligations.RecvIsFdecAfterPdec : Prop :=
  ∀ s : State, ∃ t u : State, exec .pdec s = .next t ∧ exec .recv s = .next u ∧
    (∀ k : Failure, t.out = some (.err k) → u.out = some (.err k)) ∧
    (∀ F : Frame, t.out = some (.ok (.frame F)) →
      ∃ v : State, exec .fdec { s with frameIn := F } = .next v ∧ u.out = v.out) ∧
    SamePorts s u ∧ SameScan t u ∧ SameEmission s u ∧ u.F = t.F ∧ u.busy = false

/-- `43_driver.md` R208: for every command of the canonical domain SEND answers a sequence and RECV of
it an equivalent command; and what RECV accepts, with a fan speed and a temperature that can be sent,
can be sent again and comes back the same. -/
def Obligations.EndToEndRoundTrip : Prop :=
  (∀ (s u : State) (c : SemanticCommand), s.cmdIn.command = some c → c.Canonical →
    ∃ (t : State) (P : PulseSequence), exec .send s = .next t ∧ t.out = some (.ok (.pulses P)) ∧
      (u.pulsesIn = P →
        ∃ (v : State) (d : DecodedCommand), exec .recv u = .next v ∧
          v.out = some (.ok (.command d)) ∧ Equivalent c d)) ∧
  ∀ (s t : State) (d : DecodedCommand), exec .recv s = .next t → t.out = some (.ok (.command d)) →
    d.fanSpeed ≠ none → (∀ f : Int, d.temperature = some f → 62 ≤ f ∧ f ≤ 86) →
      ∀ (u w : State) (c : SemanticCommand), u.cmdIn.command = some c → c.mode = d.mode →
        c.preset = d.preset → d.fanSpeed = some c.fanSpeed →
        (∀ f : Int, d.temperature = some f → c.temperature = f) →
          ∃ (v : State) (P : PulseSequence), exec .send u = .next v ∧
            v.out = some (.ok (.pulses P)) ∧
            (w.pulsesIn = P →
              ∃ (x : State) (d' : DecodedCommand), exec .recv w = .next x ∧
                x.out = some (.ok (.command d')) ∧ Equivalent c d')

/-- `43_driver.md` R205: a flipped bit of the checksum byte of an encoded frame is a
ChecksumMismatch. -/
def Obligations.FlippedChecksumBitIsCaughtByRecv : Prop :=
  ∀ (s t u : State) (F : Frame) (n d : Nat), exec .fenc s = .next t →
    t.out = some (.ok (.frame F)) → 64 ≤ n → n ≤ 71 →
    (penc F)[3 + 2 * n]? = some d →
    u.pulsesIn = (penc F).set (3 + 2 * n) (if d = 550 then 1600 else 550) →
      ∃ v : State, exec .recv u = .next v ∧ v.out = some (.err .checksumMismatch)

/-! ## The frame forms -/

/-- FRAME.OFF as an instruction delivers OFF (`40_framecodec.md` R143; that a frame can be presented
on its own is the model's choice, log 4). -/
def Obligations.FrameOffDeliversOff : Prop :=
  ∀ (s : State) (x : OffFields) (F : Frame),
    F = ⟨0x19, 0x00, x.fanMode, x.reserved3, x.tempOrMode, x.reserved5, x.reserved6, x.reserved7,
      BitVec.ofNat 8 ((x.fanMode.toNat + x.tempOrMode.toNat) % 256)⟩ →
    exec (.frameOff x) s = .next { s with
      frameIn := F
      F := F
      out := some (.ok (.command ⟨.off, .none, fanOfNumber (x.fanMode.toNat / 16), none⟩))
      busy := false }

/-- FRAME.AUTO, FRAME.DRY, FRAME.FAN_ONLY, FRAME.COOL, FRAME.ECO, FRAME.SLEEP as instructions complete
and deliver the command of their row of the decode mapping (`40_framecodec.md` R145, R146). They are
well-formed: their power byte is not 0x00, else the frame is OFF (R143; `30_encoding.md` R100 priority 1).
That a frame can be presented on its own is the model's choice, log 4. -/
def Obligations.FrameFormsDeliverTheirCommands : Prop :=
  ∀ (s : State) (x : OnFields) (i : Instr) (n : Nat) (d : DecodedCommand) (F : Frame),
    i.wellFormed = true →
    ((i = .frameAuto x ∧ n = 0 ∧ d = ⟨.auto, .none, fanOfNumber x.fanNibble.toNat, none⟩) ∨
      (i = .frameCool x ∧ n = 1 ∧
        d = ⟨.cool, .none, fanOfNumber x.fanNibble.toNat, some (x.tempOrMode.toNat : Int)⟩) ∨
      (i = .frameDry x ∧ n = 2 ∧ d = ⟨.dry, .none, some .low, none⟩) ∨
      (i = .frameFanOnly x ∧ n = 3 ∧ d = ⟨.fanOnly, .none, fanOfNumber x.fanNibble.toNat, none⟩) ∨
      (i = .frameEco x ∧ n = 5 ∧
        d = ⟨.cool, .eco, fanOfNumber x.fanNibble.toNat, some (x.tempOrMode.toNat : Int)⟩) ∨
      (i = .frameSleep x ∧ n = 6 ∧
        d = ⟨.cool, .sleep, fanOfNumber x.fanNibble.toNat, some (x.tempOrMode.toNat : Int)⟩)) →
    F = ⟨0x19, x.powerState, BitVec.ofNat 8 (16 * x.fanNibble.toNat + n), x.reserved3, x.tempOrMode,
      x.reserved5, x.reserved6, x.reserved7,
      BitVec.ofNat 8
        ((x.powerState.toNat + (16 * x.fanNibble.toNat + n) + x.tempOrMode.toNat) % 256)⟩ →
    exec i s = .next { s with frameIn := F, F := F, out := some (.ok (.command d)), busy := false }

/-- A frame presented on its own is served exactly as an FDEC request for it, accepted or not
(`40_framecodec.md` R140; log 4, log 5; the operand ports in the end state: log 17). -/
def Obligations.FramePresentedAloneIsServedAsFdec : Prop :=
  ∀ (s : State) (F : Frame) (cmd : CommandOperand) (f : Frame) (P : PulseSequence)
    (rest : List Request),
    step { s with requests := ⟨.frame72 F, cmd, f, P⟩ :: rest } =
      step { s with requests := ⟨.op3 1, cmd, F, P⟩ :: rest }

/-! ## What each instruction leaves unchanged -/

/-- The frame of all thirteen instructions (`10_state.md` R23, R31, R32): the waiting requests and the
operands are never touched, only PDEC and RECV move the scan registers, only PENC and SEND the
emission, and FENC leaves the buffer alone when it fails. The model's choices in it: a frame form's
frame becomes the frame operand and the buffer (log 4), the registers an instruction does not use are
kept (log 11), and so are the operand ports it does not read (log 17). -/
def Obligations.InstructionsChangeOnlyTheirOwnRegisters : Prop :=
  ∀ (i : Instr) (s t : State), exec i s = .next t →
    t.requests = s.requests ∧ t.cmdIn = s.cmdIn ∧ t.pulsesIn = s.pulsesIn ∧
    (∀ f : Frame, encodeWord i = .frame72 f → t.frameIn = f ∧ t.F = f) ∧
    (i ∈ [.fenc, .fdec, .penc, .pdec, .send, .recv] → t.frameIn = s.frameIn) ∧
    (i ≠ .pdec → i ≠ .recv → SameScan s t) ∧
    (i ≠ .penc → i ≠ .send → SameEmission s t) ∧
    (i = .fdec ∨ i = .penc → t.F = s.frameIn) ∧
    (i = .fenc ∨ i = .send → (∀ k : Failure, t.out = some (.err k) → t.F = s.F)) ∧
    t.busy = false

/-! ## A truncated scan -/

/-- The scan ends with TruncatedFrame when the pairs run out: the header and the pairs before `n` are
good, `n` is below 72, and of pair `n` nothing or a lone mark is left, whatever that mark is
(`42_pulse_decode.md` R185, `60_exceptions.md` R223). -/
def Obligations.PdecIsTruncatedWhenThePairsRunOut : Prop :=
  ∀ (s : State) (n m sp : Nat), n < 72 →
    s.pulsesIn[0]? = some m → s.pulsesIn[1]? = some sp → HeaderInWindow m sp →
    (∀ k : Nat, k < n → ∃ (x y : Nat) (bit : Bool), s.pulsesIn[2 + 2 * k]? = some x ∧
      s.pulsesIn[3 + 2 * k]? = some y ∧ PairReads bit x y) →
    s.pulsesIn.length = 2 + 2 * n ∨ s.pulsesIn.length = 3 + 2 * n →
      ∃ t : State, exec .pdec s = .next t ∧ t.out = some (.err .truncatedFrame) ∧
        t.phase = .failed ∧ t.busy = false ∧ SamePorts s t ∧ SameEmission s t

/-! ## The status outputs -/

/-- The outputs as the host reads them, for each result presented: `status`, `err`, `result`, and the
code of the failure, 0 for none (`10_state.md` R27, `60_exceptions.md` R215, R224). That `err` is no kind on
Ok and `result` no value on Err is the model's choice for the pin level, log 14. -/
def Obligations.OutputsSayTheResult : Prop :=
  ∀ t : State,
    (∀ v : Value, t.out = some (.ok v) →
      t.status = some .ok ∧ t.result = some v ∧ t.err = none ∧ t.errCode = 0) ∧
    (∀ k : Failure, t.out = some (.err k) →
      t.status = some .err ∧ t.err = some k ∧ t.result = none ∧ t.errCode = failureNumber k) ∧
    (t.out = none → t.status = none ∧ t.err = none ∧ t.result = none ∧ t.errCode = 0)

/-- After an instruction, the host reads Err exactly with one of the failures that instruction can
raise, under its code 1 to 8, and each of these is raised from some state (`00_scope.md` R3,
`60_exceptions.md` R215, R224, `10_state.md` R27; that the frame forms are instructions: log 4). -/
def Obligations.EachInstructionRaisesItsOwnFailures : Prop :=
  (∀ (i : Instr) (s t : State), exec i s = .next t →
    (t.status = some .err ↔ t.errCode ≠ 0) ∧
      (t.errCode ≠ 0 → ∃ k ∈ failuresOf i, t.err = some k ∧ t.errCode = failureNumber k)) ∧
  ∀ (i : Instr) (k : Failure), k ∈ failuresOf i →
    ∃ s t : State, exec i s = .next t ∧ t.status = some .err ∧ t.errCode = failureNumber k

/-! ## Builds -/

/-- The machine of every build: this hardware is the build at the default parameters, a build differs
from it in PDEC and RECV only, and its step runs the decoded instruction of the build
(`70_reset_and_hazards.md` R253, R254, `10_state.md` R30; the default of log 1, the operand ports of log
17). -/
def Obligations.BuildsDifferOnlyInTheScan : Prop :=
  (∀ s : State, stepIn Config.params s = step s ∧ ∀ i : Instr, execIn Config.params i s = exec i s) ∧
  ∀ (p : Params) (s : State),
    (∀ i : Instr, i ≠ .pdec → i ≠ .recv → execIn p i s = exec i s) ∧
    ∀ (r : Request) (rest : List Request) (i : Instr),
      s.requests = r :: rest → decodeWord r.word = .ok i →
        stepIn p s = execIn p i { s with requests := rest, busy := true, cmdIn := r.cmd,
                                         frameIn := r.frame, pulsesIn := r.pulses }

/-- Every build scans at its own tolerance: its PDEC answers what the function PDEC answers at that
tolerance, its RECV is FDEC after that; and in every legal build RECV of SEND is equivalent to the
command (`70_reset_and_hazards.md` R253, `10_state.md` R30, `42_pulse_decode.md` R178, R190,
`43_driver.md` R203, R208). -/
def Obligations.EveryBuildScansAtItsOwnTolerance : Prop :=
  (∀ (p : Params) (s : State),
    (∀ F : Frame, pdec p.tolPct s.pulsesIn = .ok F →
      ∃ t u v : State, execIn p .pdec s = .next t ∧ t.out = some (.ok (.frame F)) ∧
        execIn p .recv s = .next u ∧ exec .fdec { s with frameIn := F } = .next v ∧ u.out = v.out) ∧
    (∀ k : Failure, pdec p.tolPct s.pulsesIn = .error k →
      ∃ t u : State, execIn p .pdec s = .next t ∧ t.out = some (.err k) ∧
        execIn p .recv s = .next u ∧ u.out = some (.err k))) ∧
  ∀ (p : Params) (s u : State) (c : SemanticCommand), p.Legal → s.cmdIn.command = some c →
    c.Canonical →
    ∃ (t : State) (P : PulseSequence), execIn p .send s = .next t ∧ t.out = some (.ok (.pulses P)) ∧
      (u.pulsesIn = P →
        ∃ (v : State) (d : DecodedCommand), execIn p .recv u = .next v ∧
          v.out = some (.ok (.command d)) ∧ Equivalent c d)
end

