-- ==== Sys2Proof/Laws/Bits.lean ====
section
/-! SUPPORT. Bytes of a frame, nibbles of a byte, and the two views of a frame word. -/

namespace Sys2Proof

@[simp] theorem upperNibble_nibbles (hi lo : Nibble) : upperNibble (nibbles hi lo) = hi := by
  revert hi lo; decide

@[simp] theorem lowerNibble_nibbles (hi lo : Nibble) : lowerNibble (nibbles hi lo) = lo := by
  revert hi lo; decide

@[simp] theorem nibbles_upper_lower (b : Byte) : nibbles (upperNibble b) (lowerNibble b) = b := by
  revert b; decide

theorem upperNibble_toNat (b : Byte) : (upperNibble b).toNat = b.toNat / 16 := by
  revert b; decide

theorem lowerNibble_toNat (b : Byte) : (lowerNibble b).toNat = b.toNat % 16 := by
  revert b; decide

theorem nibbles_toNat (hi lo : Nibble) : (nibbles hi lo).toNat = 16 * hi.toNat + lo.toNat := by
  revert hi lo; decide

theorem csum_toNat (p m t : Byte) : (csum p m t).toNat = (p.toNat + m.toNat + t.toNat) % 256 := by
  simp [csum, BitVec.toNat_add]

@[simp] theorem Frame.byte_setByte_same (F : Frame) (i : Fin 9) (v : Byte) :
    (F.setByte i v).byte i = v := by
  fin_cases i <;> rfl

theorem Frame.byte_setByte_of_ne (F : Frame) {i k : Fin 9} (h : k ≠ i) (v : Byte) :
    (F.setByte i v).byte k = F.byte k := by
  fin_cases i <;> fin_cases k <;> first | rfl | exact absurd rfl h

/-- A frame is its nine bytes. -/
theorem Frame.ext_byte {F G : Frame} (h : ∀ i : Fin 9, F.byte i = G.byte i) : F = G := by
  cases F
  cases G
  rw [Frame.mk.injEq]
  exact ⟨h 0, h 1, h 2, h 3, h 4, h 5, h 6, h 7, h 8⟩

/-- Writing a bit sets that bit and leaves the others (`42_pulse_decode.md` R182). -/
theorem writeBit_getLsbD (v : Byte) (j k : Fin 8) (b : Bool) :
    (writeBit v j b).getLsbD k.val = if k = j then b else v.getLsbD k.val := by
  have hk : k.val < 8 := k.isLt
  by_cases h : k = j
  · subst h
    cases b <;> simp [writeBit, hk]
  · have h' : ¬k.val = j.val := fun e => h (Fin.ext e)
    cases b <;> simp [writeBit, hk, h, h']

theorem Frame.bit_setBit (F : Frame) (i k : Fin 9) (j l : Fin 8) (b : Bool) :
    (F.setBit i j b).bit k l = if k = i ∧ l = j then b else F.bit k l := by
  unfold Frame.bit Frame.setBit
  by_cases h : k = i
  · subst h
    rw [Frame.byte_setByte_same, writeBit_getLsbD]
    simp
  · simp [h, Frame.byte_setByte_of_ne F h]

/-- A frame is its 72 bits. -/
theorem Frame.ext_bit {F G : Frame} (h : ∀ (i : Fin 9) (j : Fin 8), F.bit i j = G.bit i j) :
    F = G := by
  refine Frame.ext_byte fun i => BitVec.eq_of_getLsbD_eq fun j hj => ?_
  exact h i ⟨j, hj⟩

/-- The byte at bits `k+7:k` of a word, by the word's value above and below it. -/
theorem extract_byte {W : BitVec 72} {b : Byte} (k hi lo : Nat)
    (h : W.toNat = (hi * 256 + b.toNat) * 2 ^ k + lo) (hl : lo < 2 ^ k) :
    W.extractLsb' k 8 = b := by
  apply BitVec.eq_of_toNat_eq
  rw [BitVec.extractLsb'_toNat, h, Nat.shiftRight_eq_div_pow, Nat.add_comm,
    Nat.add_mul_div_right _ _ (by positivity), Nat.div_eq_of_lt hl]
  have := b.isLt
  omega

/-- The word's value is the sum of `20_memory.md` R56, which fits in 72 bits. -/
theorem Frame.toWord_toNat (F : Frame) :
    F.toWord.toNat =
      F.deviceId.toNat * 2 ^ 64 + F.powerState.toNat * 2 ^ 56 + F.fanMode.toNat * 2 ^ 48
        + F.reserved3.toNat * 2 ^ 40 + F.tempOrMode.toNat * 2 ^ 32 + F.reserved5.toNat * 2 ^ 24
        + F.reserved6.toNat * 2 ^ 16 + F.reserved7.toNat * 2 ^ 8 + F.checksum.toNat := by
  obtain ⟨b0, b1, b2, b3, b4, b5, b6, b7, b8⟩ := F
  have h0 := b0.isLt
  have h1 := b1.isLt
  have h2 := b2.isLt
  have h3 := b3.isLt
  have h4 := b4.isLt
  have h5 := b5.isLt
  have h6 := b6.isLt
  have h7 := b7.isLt
  have h8 := b8.isLt
  rw [Frame.toWord, BitVec.toNat_ofNat, Nat.mod_eq_of_lt]
  norm_num at *
  omega

@[simp] theorem Frame.ofWord_toWord (F : Frame) : Frame.ofWord F.toWord = F := by
  have hW := F.toWord_toNat
  obtain ⟨b0, b1, b2, b3, b4, b5, b6, b7, b8⟩ := F
  have h0 := b0.isLt
  have h1 := b1.isLt
  have h2 := b2.isLt
  have h3 := b3.isLt
  have h4 := b4.isLt
  have h5 := b5.isLt
  have h6 := b6.isLt
  have h7 := b7.isLt
  have h8 := b8.isLt
  generalize Frame.toWord ⟨b0, b1, b2, b3, b4, b5, b6, b7, b8⟩ = W at hW ⊢
  simp only [Nat.reducePow] at hW h0 h1 h2 h3 h4 h5 h6 h7 h8
  have e0 := extract_byte (W := W) (b := b0) 64 (0)
    (b1.toNat * 72057594037927936 + b2.toNat * 281474976710656 + b3.toNat * 1099511627776 + b4.toNat * 4294967296 + b5.toNat * 16777216 + b6.toNat * 65536 + b7.toNat * 256 + b8.toNat)
    (by rw [hW]; ring) (by simp only [Nat.reducePow]; omega)
  have e1 := extract_byte (W := W) (b := b1) 56 (b0.toNat)
    (b2.toNat * 281474976710656 + b3.toNat * 1099511627776 + b4.toNat * 4294967296 + b5.toNat * 16777216 + b6.toNat * 65536 + b7.toNat * 256 + b8.toNat)
    (by rw [hW]; ring) (by simp only [Nat.reducePow]; omega)
  have e2 := extract_byte (W := W) (b := b2) 48 (b0.toNat * 256 + b1.toNat)
    (b3.toNat * 1099511627776 + b4.toNat * 4294967296 + b5.toNat * 16777216 + b6.toNat * 65536 + b7.toNat * 256 + b8.toNat)
    (by rw [hW]; ring) (by simp only [Nat.reducePow]; omega)
  have e3 := extract_byte (W := W) (b := b3) 40 (b0.toNat * 65536 + b1.toNat * 256 + b2.toNat)
    (b4.toNat * 4294967296 + b5.toNat * 16777216 + b6.toNat * 65536 + b7.toNat * 256 + b8.toNat)
    (by rw [hW]; ring) (by simp only [Nat.reducePow]; omega)
  have e4 := extract_byte (W := W) (b := b4) 32 (b0.toNat * 16777216 + b1.toNat * 65536 + b2.toNat * 256 + b3.toNat)
    (b5.toNat * 16777216 + b6.toNat * 65536 + b7.toNat * 256 + b8.toNat)
    (by rw [hW]; ring) (by simp only [Nat.reducePow]; omega)
  have e5 := extract_byte (W := W) (b := b5) 24 (b0.toNat * 4294967296 + b1.toNat * 16777216 + b2.toNat * 65536 + b3.toNat * 256 + b4.toNat)
    (b6.toNat * 65536 + b7.toNat * 256 + b8.toNat)
    (by rw [hW]; ring) (by simp only [Nat.reducePow]; omega)
  have e6 := extract_byte (W := W) (b := b6) 16 (b0.toNat * 1099511627776 + b1.toNat * 4294967296 + b2.toNat * 16777216 + b3.toNat * 65536 + b4.toNat * 256 + b5.toNat)
    (b7.toNat * 256 + b8.toNat)
    (by rw [hW]; ring) (by simp only [Nat.reducePow]; omega)
  have e7 := extract_byte (W := W) (b := b7) 8 (b0.toNat * 281474976710656 + b1.toNat * 1099511627776 + b2.toNat * 4294967296 + b3.toNat * 16777216 + b4.toNat * 65536 + b5.toNat * 256 + b6.toNat)
    (b8.toNat)
    (by rw [hW]; ring) (by simp only [Nat.reducePow]; omega)
  have e8 := extract_byte (W := W) (b := b8) 0 (b0.toNat * 72057594037927936 + b1.toNat * 281474976710656 + b2.toNat * 1099511627776 + b3.toNat * 4294967296 + b4.toNat * 16777216 + b5.toNat * 65536 + b6.toNat * 256 + b7.toNat)
    (0)
    (by rw [hW]; ring) (by simp only [Nat.reducePow]; omega)
  simp only [Frame.ofWord, e0, e1, e2, e3, e4, e5, e6, e7, e8]

/-- Wire bit `n` is bit `7 - n mod 8` of byte `n div 8` (`20_memory.md` R54). -/
theorem Frame.wireBit_eq_bit (F : Frame) (i : Fin 9) (j : Fin 8) :
    F.wireBit (8 * i.val + (7 - j.val)) = F.bit i j := by
  fin_cases i <;> fin_cases j <;> rfl

end Sys2Proof
end

