-- ==== Sys2Proof/Laws/Decode.lean ====
section
/-! SUPPORT. What the frame decoder can answer, said once. -/

namespace Sys2Proof

open Sys2Proof.Machine

theorem offFields_toFrame {F : Frame} (h0 : F.deviceId = DEVICE_ID) (h1 : F.powerState = PWR_OFF)
    (h8 : F.checksum = csum F.powerState F.fanMode F.tempOrMode) : F.offFields.toFrame = F := by
  cases F
  simp_all [Frame.offFields, OffFields.toFrame]

theorem onFields_toFrame {F : Frame} (h0 : F.deviceId = DEVICE_ID)
    (h8 : F.checksum = csum F.powerState F.fanMode F.tempOrMode) :
    F.onFields.toFrame (lowerNibble F.fanMode) = F := by
  cases F
  simp_all [Frame.onFields, OnFields.toFrame]

@[simp] theorem toFrame_onFields (x : OnFields) (n : Nibble) : (x.toFrame n).onFields = x := by
  simp [Frame.onFields, OnFields.toFrame]

/-- The form a nibble selects is the one whose nibble it is (`30_encoding.md` R85). -/
theorem formOfNibble_cases {n : Nibble} {x : OnFields} {i : Instr} (h : formOfNibble n x = .ok i) :
    (n = NIB_AUTO ∧ i = .frameAuto x) ∨ (n = NIB_COOL ∧ i = .frameCool x) ∨
      (n = NIB_DRY ∧ i = .frameDry x) ∨ (n = NIB_FAN ∧ i = .frameFanOnly x) ∨
      (n = NIB_ECO ∧ i = .frameEco x) ∨ (n = NIB_SLEEP ∧ i = .frameSleep x) := by
  unfold formOfNibble at h
  split_ifs at h <;> simp_all

/-- A frame that decodes has passed both checks, and is OFF or the form of its nibble
(`30_encoding.md` R100). -/
theorem decodeFrame_cases {F : Frame} {i : Instr} (h : decodeFrame F = .ok i) :
    F.deviceId = DEVICE_ID ∧ F.checksum = csum F.powerState F.fanMode F.tempOrMode ∧
      ((F.powerState = PWR_OFF ∧ i = .frameOff F.offFields) ∨
        (F.powerState ≠ PWR_OFF ∧ formOfNibble (lowerNibble F.fanMode) F.onFields = .ok i)) := by
  unfold decodeFrame at h
  split_ifs at h <;> simp_all

/-- A request's word is never rejected for its length or for bits above the select lines. -/
theorem decodeWord_error_cases {w : PortWord} {e : Reject} (h : decodeWord w = .error e) :
    (e = .reservedOpCode ∧ (w = .op3 6 ∨ w = .op3 7)) ∨
      ∃ F : Frame, w = .frame72 F ∧
        (e = .badDeviceId ∨ e = .checksumMismatch ∨ e = .unknownModeNibble) := by
  cases w with
  | op3 code =>
    refine .inl ?_
    simp only [decodeWord] at h
    have hc : ∀ code : BitVec 3, decodeOp code = .error .reservedOpCode ∧ (code = 6 ∨ code = 7) ∨
        ∃ i ∈ [Instr.fenc, .fdec, .penc, .pdec, .send, .recv], decodeOp code = .ok i := by decide
    rcases hc code with ⟨h', hc'⟩ | ⟨i, -, h'⟩
    · rw [h'] at h
      cases h
      simpa using hc'
    · rw [h'] at h
      cases h
  | frame72 F =>
    refine .inr ⟨F, rfl, ?_⟩
    simp only [decodeWord, decodeFrame, formOfNibble] at h
    split_ifs at h <;> simp_all

end Sys2Proof
end

