-- ==== Sys2Proof/Laws/State.lean ====
section
/-! SUPPORT. For every update of the state, what each field holds afterwards. -/

namespace Sys2Proof.Machine

/-! ## deliver -/

@[simp] theorem deliver_requests (v : Value) (s : State) :
    (deliver v s).requests = s.requests := rfl
@[simp] theorem deliver_busy (v : Value) (s : State) : (deliver v s).busy = false := rfl
@[simp] theorem deliver_cmdIn (v : Value) (s : State) : (deliver v s).cmdIn = s.cmdIn := rfl
@[simp] theorem deliver_frameIn (v : Value) (s : State) : (deliver v s).frameIn = s.frameIn := rfl
@[simp] theorem deliver_pulsesIn (v : Value) (s : State) :
    (deliver v s).pulsesIn = s.pulsesIn := rfl
@[simp] theorem deliver_F (v : Value) (s : State) : (deliver v s).F = s.F := rfl
@[simp] theorem deliver_phase (v : Value) (s : State) : (deliver v s).phase = s.phase := rfl
@[simp] theorem deliver_byteIndex (v : Value) (s : State) :
    (deliver v s).byteIndex = s.byteIndex := rfl
@[simp] theorem deliver_bitIndex (v : Value) (s : State) :
    (deliver v s).bitIndex = s.bitIndex := rfl
@[simp] theorem deliver_pos (v : Value) (s : State) : (deliver v s).pos = s.pos := rfl
@[simp] theorem deliver_emitPos (v : Value) (s : State) : (deliver v s).emitPos = s.emitPos := rfl
@[simp] theorem deliver_emitted (v : Value) (s : State) : (deliver v s).emitted = s.emitted := rfl
@[simp] theorem deliver_out (v : Value) (s : State) : (deliver v s).out = some (.ok v) := rfl

/-! ## raiseFailure -/

@[simp] theorem raiseFailure_requests (k : Failure) (s : State) :
    (raiseFailure k s).requests = s.requests := rfl
@[simp] theorem raiseFailure_busy (k : Failure) (s : State) : (raiseFailure k s).busy = false := rfl
@[simp] theorem raiseFailure_cmdIn (k : Failure) (s : State) :
    (raiseFailure k s).cmdIn = s.cmdIn := rfl
@[simp] theorem raiseFailure_frameIn (k : Failure) (s : State) :
    (raiseFailure k s).frameIn = s.frameIn := rfl
@[simp] theorem raiseFailure_pulsesIn (k : Failure) (s : State) :
    (raiseFailure k s).pulsesIn = s.pulsesIn := rfl
@[simp] theorem raiseFailure_F (k : Failure) (s : State) : (raiseFailure k s).F = s.F := rfl
@[simp] theorem raiseFailure_phase (k : Failure) (s : State) :
    (raiseFailure k s).phase = s.phase := rfl
@[simp] theorem raiseFailure_byteIndex (k : Failure) (s : State) :
    (raiseFailure k s).byteIndex = s.byteIndex := rfl
@[simp] theorem raiseFailure_bitIndex (k : Failure) (s : State) :
    (raiseFailure k s).bitIndex = s.bitIndex := rfl
@[simp] theorem raiseFailure_pos (k : Failure) (s : State) : (raiseFailure k s).pos = s.pos := rfl
@[simp] theorem raiseFailure_emitPos (k : Failure) (s : State) :
    (raiseFailure k s).emitPos = s.emitPos := rfl
@[simp] theorem raiseFailure_emitted (k : Failure) (s : State) :
    (raiseFailure k s).emitted = s.emitted := rfl
@[simp] theorem raiseFailure_out (k : Failure) (s : State) :
    (raiseFailure k s).out = some (.err k) := rfl

/-! ## refuseRequest -/

@[simp] theorem refuseRequest_requests (s : State) : (refuseRequest s).requests = s.requests := rfl
@[simp] theorem refuseRequest_busy (s : State) : (refuseRequest s).busy = false := rfl
@[simp] theorem refuseRequest_cmdIn (s : State) : (refuseRequest s).cmdIn = s.cmdIn := rfl
@[simp] theorem refuseRequest_frameIn (s : State) : (refuseRequest s).frameIn = s.frameIn := rfl
@[simp] theorem refuseRequest_pulsesIn (s : State) : (refuseRequest s).pulsesIn = s.pulsesIn := rfl
@[simp] theorem refuseRequest_F (s : State) : (refuseRequest s).F = s.F := rfl
@[simp] theorem refuseRequest_phase (s : State) : (refuseRequest s).phase = s.phase := rfl
@[simp] theorem refuseRequest_byteIndex (s : State) :
    (refuseRequest s).byteIndex = s.byteIndex := rfl
@[simp] theorem refuseRequest_bitIndex (s : State) : (refuseRequest s).bitIndex = s.bitIndex := rfl
@[simp] theorem refuseRequest_pos (s : State) : (refuseRequest s).pos = s.pos := rfl
@[simp] theorem refuseRequest_emitPos (s : State) : (refuseRequest s).emitPos = s.emitPos := rfl
@[simp] theorem refuseRequest_emitted (s : State) : (refuseRequest s).emitted = s.emitted := rfl
@[simp] theorem refuseRequest_out (s : State) : (refuseRequest s).out = none := rfl

/-! ## takeRequest -/

@[simp] theorem takeRequest_requests (r : Request) (rest : List Request) (s : State) :
    (takeRequest r rest s).requests = rest := rfl
@[simp] theorem takeRequest_busy (r : Request) (rest : List Request) (s : State) :
    (takeRequest r rest s).busy = true := rfl
@[simp] theorem takeRequest_cmdIn (r : Request) (rest : List Request) (s : State) :
    (takeRequest r rest s).cmdIn = r.cmd := rfl
@[simp] theorem takeRequest_frameIn (r : Request) (rest : List Request) (s : State) :
    (takeRequest r rest s).frameIn = r.frame := rfl
@[simp] theorem takeRequest_pulsesIn (r : Request) (rest : List Request) (s : State) :
    (takeRequest r rest s).pulsesIn = r.pulses := rfl
@[simp] theorem takeRequest_F (r : Request) (rest : List Request) (s : State) :
    (takeRequest r rest s).F = s.F := rfl
@[simp] theorem takeRequest_phase (r : Request) (rest : List Request) (s : State) :
    (takeRequest r rest s).phase = s.phase := rfl
@[simp] theorem takeRequest_byteIndex (r : Request) (rest : List Request) (s : State) :
    (takeRequest r rest s).byteIndex = s.byteIndex := rfl
@[simp] theorem takeRequest_bitIndex (r : Request) (rest : List Request) (s : State) :
    (takeRequest r rest s).bitIndex = s.bitIndex := rfl
@[simp] theorem takeRequest_pos (r : Request) (rest : List Request) (s : State) :
    (takeRequest r rest s).pos = s.pos := rfl
@[simp] theorem takeRequest_emitPos (r : Request) (rest : List Request) (s : State) :
    (takeRequest r rest s).emitPos = s.emitPos := rfl
@[simp] theorem takeRequest_emitted (r : Request) (rest : List Request) (s : State) :
    (takeRequest r rest s).emitted = s.emitted := rfl
@[simp] theorem takeRequest_out (r : Request) (rest : List Request) (s : State) :
    (takeRequest r rest s).out = s.out := rfl

/-! ## presentFrame -/

@[simp] theorem presentFrame_requests (f : Frame) (s : State) :
    (presentFrame f s).requests = s.requests := rfl
@[simp] theorem presentFrame_busy (f : Frame) (s : State) : (presentFrame f s).busy = s.busy := rfl
@[simp] theorem presentFrame_cmdIn (f : Frame) (s : State) :
    (presentFrame f s).cmdIn = s.cmdIn := rfl
@[simp] theorem presentFrame_frameIn (f : Frame) (s : State) : (presentFrame f s).frameIn = f := rfl
@[simp] theorem presentFrame_pulsesIn (f : Frame) (s : State) :
    (presentFrame f s).pulsesIn = s.pulsesIn := rfl
@[simp] theorem presentFrame_F (f : Frame) (s : State) : (presentFrame f s).F = s.F := rfl
@[simp] theorem presentFrame_phase (f : Frame) (s : State) :
    (presentFrame f s).phase = s.phase := rfl
@[simp] theorem presentFrame_byteIndex (f : Frame) (s : State) :
    (presentFrame f s).byteIndex = s.byteIndex := rfl
@[simp] theorem presentFrame_bitIndex (f : Frame) (s : State) :
    (presentFrame f s).bitIndex = s.bitIndex := rfl
@[simp] theorem presentFrame_pos (f : Frame) (s : State) : (presentFrame f s).pos = s.pos := rfl
@[simp] theorem presentFrame_emitPos (f : Frame) (s : State) :
    (presentFrame f s).emitPos = s.emitPos := rfl
@[simp] theorem presentFrame_emitted (f : Frame) (s : State) :
    (presentFrame f s).emitted = s.emitted := rfl
@[simp] theorem presentFrame_out (f : Frame) (s : State) : (presentFrame f s).out = s.out := rfl

/-! ## loadFrame -/

@[simp] theorem loadFrame_requests (f : Frame) (s : State) :
    (loadFrame f s).requests = s.requests := rfl
@[simp] theorem loadFrame_busy (f : Frame) (s : State) : (loadFrame f s).busy = s.busy := rfl
@[simp] theorem loadFrame_cmdIn (f : Frame) (s : State) : (loadFrame f s).cmdIn = s.cmdIn := rfl
@[simp] theorem loadFrame_frameIn (f : Frame) (s : State) :
    (loadFrame f s).frameIn = s.frameIn := rfl
@[simp] theorem loadFrame_pulsesIn (f : Frame) (s : State) :
    (loadFrame f s).pulsesIn = s.pulsesIn := rfl
@[simp] theorem loadFrame_F (f : Frame) (s : State) : (loadFrame f s).F = f := rfl
@[simp] theorem loadFrame_phase (f : Frame) (s : State) : (loadFrame f s).phase = s.phase := rfl
@[simp] theorem loadFrame_byteIndex (f : Frame) (s : State) :
    (loadFrame f s).byteIndex = s.byteIndex := rfl
@[simp] theorem loadFrame_bitIndex (f : Frame) (s : State) :
    (loadFrame f s).bitIndex = s.bitIndex := rfl
@[simp] theorem loadFrame_pos (f : Frame) (s : State) : (loadFrame f s).pos = s.pos := rfl
@[simp] theorem loadFrame_emitPos (f : Frame) (s : State) :
    (loadFrame f s).emitPos = s.emitPos := rfl
@[simp] theorem loadFrame_emitted (f : Frame) (s : State) :
    (loadFrame f s).emitted = s.emitted := rfl
@[simp] theorem loadFrame_out (f : Frame) (s : State) : (loadFrame f s).out = s.out := rfl

/-! ## startEmission -/

@[simp] theorem startEmission_requests (s : State) : (startEmission s).requests = s.requests := rfl
@[simp] theorem startEmission_busy (s : State) : (startEmission s).busy = s.busy := rfl
@[simp] theorem startEmission_cmdIn (s : State) : (startEmission s).cmdIn = s.cmdIn := rfl
@[simp] theorem startEmission_frameIn (s : State) : (startEmission s).frameIn = s.frameIn := rfl
@[simp] theorem startEmission_pulsesIn (s : State) : (startEmission s).pulsesIn = s.pulsesIn := rfl
@[simp] theorem startEmission_F (s : State) : (startEmission s).F = s.F := rfl
@[simp] theorem startEmission_phase (s : State) : (startEmission s).phase = s.phase := rfl
@[simp] theorem startEmission_byteIndex (s : State) :
    (startEmission s).byteIndex = s.byteIndex := rfl
@[simp] theorem startEmission_bitIndex (s : State) : (startEmission s).bitIndex = s.bitIndex := rfl
@[simp] theorem startEmission_pos (s : State) : (startEmission s).pos = s.pos := rfl
@[simp] theorem startEmission_emitPos (s : State) : (startEmission s).emitPos = 0 := rfl
@[simp] theorem startEmission_emitted (s : State) : (startEmission s).emitted = [] := rfl
@[simp] theorem startEmission_out (s : State) : (startEmission s).out = s.out := rfl

/-! ## emitStep -/

@[simp] theorem emitStep_requests (s : State) : (emitStep s).requests = s.requests := rfl
@[simp] theorem emitStep_busy (s : State) : (emitStep s).busy = s.busy := rfl
@[simp] theorem emitStep_cmdIn (s : State) : (emitStep s).cmdIn = s.cmdIn := rfl
@[simp] theorem emitStep_frameIn (s : State) : (emitStep s).frameIn = s.frameIn := rfl
@[simp] theorem emitStep_pulsesIn (s : State) : (emitStep s).pulsesIn = s.pulsesIn := rfl
@[simp] theorem emitStep_F (s : State) : (emitStep s).F = s.F := rfl
@[simp] theorem emitStep_phase (s : State) : (emitStep s).phase = s.phase := rfl
@[simp] theorem emitStep_byteIndex (s : State) : (emitStep s).byteIndex = s.byteIndex := rfl
@[simp] theorem emitStep_bitIndex (s : State) : (emitStep s).bitIndex = s.bitIndex := rfl
@[simp] theorem emitStep_pos (s : State) : (emitStep s).pos = s.pos := rfl
@[simp] theorem emitStep_emitPos (s : State) : (emitStep s).emitPos = s.emitPos + 1 := rfl
@[simp] theorem emitStep_emitted (s : State) :
    (emitStep s).emitted = s.emitted ++ [pulseAt s.F s.emitPos] := rfl
@[simp] theorem emitStep_out (s : State) : (emitStep s).out = s.out := rfl

/-! ## writeScan -/

@[simp] theorem writeScan_requests (sc : Scan) (s : State) :
    (writeScan sc s).requests = s.requests := rfl
@[simp] theorem writeScan_busy (sc : Scan) (s : State) : (writeScan sc s).busy = s.busy := rfl
@[simp] theorem writeScan_cmdIn (sc : Scan) (s : State) : (writeScan sc s).cmdIn = s.cmdIn := rfl
@[simp] theorem writeScan_frameIn (sc : Scan) (s : State) :
    (writeScan sc s).frameIn = s.frameIn := rfl
@[simp] theorem writeScan_pulsesIn (sc : Scan) (s : State) :
    (writeScan sc s).pulsesIn = s.pulsesIn := rfl
@[simp] theorem writeScan_F (sc : Scan) (s : State) : (writeScan sc s).F = sc.F := rfl
@[simp] theorem writeScan_phase (sc : Scan) (s : State) : (writeScan sc s).phase = sc.phase := rfl
@[simp] theorem writeScan_byteIndex (sc : Scan) (s : State) :
    (writeScan sc s).byteIndex = sc.byteIndex := rfl
@[simp] theorem writeScan_bitIndex (sc : Scan) (s : State) :
    (writeScan sc s).bitIndex = sc.bitIndex := rfl
@[simp] theorem writeScan_pos (sc : Scan) (s : State) : (writeScan sc s).pos = sc.pos := rfl
@[simp] theorem writeScan_emitPos (sc : Scan) (s : State) :
    (writeScan sc s).emitPos = s.emitPos := rfl
@[simp] theorem writeScan_emitted (sc : Scan) (s : State) :
    (writeScan sc s).emitted = s.emitted := rfl
@[simp] theorem writeScan_out (sc : Scan) (s : State) : (writeScan sc s).out = s.out := rfl

/-! ## submit -/

@[simp] theorem submit_requests (r : Request) (s : State) :
    (submit r s).requests = s.requests ++ [r] := rfl
@[simp] theorem submit_busy (r : Request) (s : State) : (submit r s).busy = s.busy := rfl
@[simp] theorem submit_cmdIn (r : Request) (s : State) : (submit r s).cmdIn = s.cmdIn := rfl
@[simp] theorem submit_frameIn (r : Request) (s : State) : (submit r s).frameIn = s.frameIn := rfl
@[simp] theorem submit_pulsesIn (r : Request) (s : State) :
    (submit r s).pulsesIn = s.pulsesIn := rfl
@[simp] theorem submit_F (r : Request) (s : State) : (submit r s).F = s.F := rfl
@[simp] theorem submit_phase (r : Request) (s : State) : (submit r s).phase = s.phase := rfl
@[simp] theorem submit_byteIndex (r : Request) (s : State) :
    (submit r s).byteIndex = s.byteIndex := rfl
@[simp] theorem submit_bitIndex (r : Request) (s : State) :
    (submit r s).bitIndex = s.bitIndex := rfl
@[simp] theorem submit_pos (r : Request) (s : State) : (submit r s).pos = s.pos := rfl
@[simp] theorem submit_emitPos (r : Request) (s : State) : (submit r s).emitPos = s.emitPos := rfl
@[simp] theorem submit_emitted (r : Request) (s : State) : (submit r s).emitted = s.emitted := rfl
@[simp] theorem submit_out (r : Request) (s : State) : (submit r s).out = s.out := rfl

end Sys2Proof.Machine
end

