-- ==== Sys2Proof/Laws/Ops.lean ====
section
/-! SUPPORT. What each shared operation can do, said once: the temperature functions, the tolerance
test, the emission and the scan. -/

namespace Sys2Proof.Machine

/-- TEMP2BYTE answers the temperature as a byte, and only in 62 to 86 (`40_framecodec.md` R121,
R123). -/
theorem temp2byte_ok_iff (f : Int) (t : Byte) :
    temp2byte f = .ok t ↔ 62 ≤ f ∧ f ≤ 86 ∧ t = BitVec.ofInt 8 f := by
  unfold temp2byte TEMP_MIN_F TEMP_MAX_F TEMP_BASE
  have e : (0x3E : Int) + (f - 62) = f := by omega
  rw [e]
  split_ifs with h
  · simp; omega
  · simp only [Except.ok.injEq, eq_comm (a := t)]
    constructor
    · intro ht; exact ⟨by omega, by omega, ht⟩
    · exact fun ht => ht.2.2

theorem temp2byte_error_iff (f : Int) (k : Failure) :
    temp2byte f = .error k ↔ (f < 62 ∨ 86 < f) ∧ k = .temperatureOutOfRange := by
  unfold temp2byte TEMP_MIN_F TEMP_MAX_F
  split_ifs with h
  · simp only [Except.error.injEq, eq_comm (a := k)]
    constructor
    · intro hk; exact ⟨by omega, hk⟩
    · exact fun hk => hk.2
  · simp; omega

/-- `BYTE2TEMP(b) = b` as a number (`40_framecodec.md` R123). -/
@[simp] theorem byte2temp_eq (b : Byte) : byte2temp b = (b.toNat : Int) := by
  unfold byte2temp TEMP_BASE TEMP_MIN_F
  omega

/-- The window of MATCH as bounds on the duration (`42_pulse_decode.md` R175). -/
theorem matchDur_iff (tol d nom : Nat) :
    matchDur tol d nom = true ↔
      100 * nom ≤ 100 * d + tol * nom ∧ 100 * d ≤ 100 * nom + tol * nom := by
  unfold matchDur
  rw [decide_eq_true_iff]
  generalize tol * nom = w
  omega

/-- A duration matches itself: the nominal value is in its window. -/
@[simp] theorem matchDur_self (tol nom : Nat) : matchDur tol nom nom = true := by
  rw [matchDur_iff]; omega

/-! ## The emission -/

/-- `n` steps of the emission emit the next `n` elements and change nothing else
(`10_state.md` R25). -/
theorem emitRun_eq (n : Nat) (s : State) :
    emitRun n s = { s with
      emitPos := s.emitPos + n
      emitted := s.emitted ++ (List.range n).map fun k => pulseAt s.F (s.emitPos + k) } := by
  induction n generalizing s with
  | zero => simp [emitRun]
  | succ n ih =>
    rw [emitRun, ih]
    simp only [emitStep, State.mk.injEq, true_and]
    refine ⟨by omega, ?_, trivial⟩
    rw [List.append_assoc, List.range_succ_eq_map]
    simp [Function.comp_def, Nat.add_comm, Nat.add_left_comm]

/-- The whole emission: 147 elements of the frame in the buffer, from the first. -/
theorem runEmission_eq (s : State) :
    runEmission s =
      { s with emitPos := 147, emitted := (List.range 147).map (pulseAt s.F) } := by
  rw [runEmission, emitRun_eq]
  simp [startEmission, PLEN]

/-! ## The scan -/

/-- Everything a step of the scan can do: nothing once it has ended; otherwise fail for want of two
elements, or consume a pair and judge it (`42_pulse_decode.md` R180, R181, R185). -/
theorem scanStep_cases (tol : Nat) (P : PulseSequence) (sc : Scan) :
    ((sc.phase = .done ∨ sc.phase = .failed) ∧ scanStep tol P sc = sc) ∨
    ((sc.phase = .expectHeader ∨ sc.phase = .expectBit) ∧ P.length < sc.pos + 2 ∧
      scanStep tol P sc = scanFail .truncatedFrame sc) ∨
    ∃ m sp : Nat, P[sc.pos]? = some m ∧ P[sc.pos + 1]? = some sp ∧
      ((sc.phase = .expectHeader ∧
          scanStep tol P sc = scanHeader tol m sp { sc with pos := sc.pos + 2 }) ∨
        (sc.phase = .expectBit ∧
          scanStep tol P sc = scanPair tol m sp { sc with pos := sc.pos + 2 })) := by
  by_cases hlen : sc.pos + 2 ≤ P.length
  · have h0 : P[sc.pos]? = some P[sc.pos] := List.getElem?_eq_getElem (by omega)
    have h1 : P[sc.pos + 1]? = some P[sc.pos + 1] := List.getElem?_eq_getElem (by omega)
    cases hp : sc.phase with
    | done => exact .inl ⟨.inl rfl, by simp [scanStep, hp]⟩
    | failed => exact .inl ⟨.inr rfl, by simp [scanStep, hp]⟩
    | expectHeader => exact .inr (.inr ⟨_, _, h0, h1, .inl ⟨rfl, by simp [scanStep, hp, h0, h1]⟩⟩)
    | expectBit => exact .inr (.inr ⟨_, _, h0, h1, .inr ⟨rfl, by simp [scanStep, hp, h0, h1]⟩⟩)
  · have h1 : P[sc.pos + 1]? = none := List.getElem?_eq_none (by omega)
    cases hp : sc.phase with
    | done => exact .inl ⟨.inl rfl, by simp [scanStep, hp]⟩
    | failed => exact .inl ⟨.inr rfl, by simp [scanStep, hp]⟩
    | expectHeader => exact .inr (.inl ⟨.inl rfl, by omega, by simp [scanStep, hp, h1]⟩)
    | expectBit => exact .inr (.inl ⟨.inr rfl, by omega, by simp [scanStep, hp, h1]⟩)

/-- A run is its first steps and then the rest. -/
theorem scanRun_add (tol : Nat) (P : PulseSequence) (m n : Nat) (sc : Scan) :
    scanRun tol P (m + n) sc = scanRun tol P n (scanRun tol P m sc) := by
  induction m generalizing sc with
  | zero => simp [scanRun]
  | succ m ih => rw [Nat.succ_add, scanRun, scanRun, ih]

/-- A scan that has ended stays as it is (`42_pulse_decode.md` R184). -/
theorem scanRun_of_ended (tol : Nat) (P : PulseSequence) (n : Nat) {sc : Scan}
    (h : sc.phase = .done ∨ sc.phase = .failed) : scanRun tol P n sc = sc := by
  induction n with
  | zero => rfl
  | succ n ih =>
    have e : scanStep tol P sc = sc := by
      rcases h with h | h <;> simp [scanStep, h]
    rw [scanRun, e, ih]

end Sys2Proof.Machine
end

