-- ==== Sys2Proof/Laws/FrameCodec.lean ====
section
/-! SUPPORT. What FENC and FDEC can answer, said once. -/

namespace Sys2Proof.Machine

/-- A temperature branch answers exactly what TEMP2BYTE does. -/
theorem coolBranch_ok_iff (fan : Byte) (n : Nibble) (f : Int) (b : Byte × Byte) :
    coolBranch fan n f = .ok b ↔
      62 ≤ f ∧ f ≤ 86 ∧ b = (fanModeByte fan n, BitVec.ofInt 8 f) := by
  unfold coolBranch
  cases h : temp2byte f with
  | ok t =>
    obtain ⟨h1, h2, rfl⟩ := (temp2byte_ok_iff f t).1 h
    simp [h1, h2, eq_comm]
  | error k =>
    obtain ⟨h1, -⟩ := (temp2byte_error_iff f k).1 h
    simp
    omega

theorem coolBranch_error_iff (fan : Byte) (n : Nibble) (f : Int) (k : Failure) :
    coolBranch fan n f = .error k ↔ (f < 62 ∨ 86 < f) ∧ k = .temperatureOutOfRange := by
  unfold coolBranch
  cases h : temp2byte f with
  | ok t =>
    obtain ⟨h1, h2, -⟩ := (temp2byte_ok_iff f t).1 h
    simp
    omega
  | error k' =>
    obtain ⟨h1, rfl⟩ := (temp2byte_error_iff f k').1 h
    simp [h1, eq_comm]

/-- The nibble of a COOL command with preset `p` (`40_framecodec.md` R133 to R135). -/
def coolNib : Preset → Nibble
  | .none => NIB_COOL
  | .eco => NIB_ECO
  | .sleep => NIB_SLEEP

/-- What FENC answers for each mode (`40_framecodec.md` R124): one equation per branch. -/
theorem fenc_off {c : SemanticCommand} (h : c.mode = .off) :
    fenc c = .ok (buildFrame PWR_OFF OFF_FAN_MODE VAL_FAN_DRY_OFF) := by simp [fenc, h]

theorem fenc_fanOnly {c : SemanticCommand} (h : c.mode = .fanOnly) :
    fenc c = .ok (buildFrame (powerByte c.preset) (fanModeByte (fanByte c.fanSpeed) NIB_FAN)
      VAL_FAN_DRY_OFF) := by simp [fenc, modeBranch, h]

theorem fenc_auto {c : SemanticCommand} (h : c.mode = .auto) :
    fenc c = .ok (buildFrame (powerByte c.preset) (fanModeByte (fanByte c.fanSpeed) NIB_AUTO)
      VAL_AUTO) := by simp [fenc, modeBranch, h]

theorem fenc_dry {c : SemanticCommand} (h : c.mode = .dry) :
    fenc c = .ok (buildFrame (powerByte c.preset) (fanModeByte FAN_LOW NIB_DRY)
      VAL_FAN_DRY_OFF) := by simp [fenc, modeBranch, h]

theorem fenc_heat {c : SemanticCommand} (h : c.mode = .heat) :
    fenc c = .error .unsupportedMode := by simp [fenc, modeBranch, h]

theorem modeBranch_cool {c : SemanticCommand} (h : c.mode = .cool) :
    modeBranch c = coolBranch (fanByte c.fanSpeed) (coolNib c.preset) c.temperature := by
  cases hp : c.preset <;> simp [modeBranch, h, hp, coolNib]

theorem fenc_cool_ok {c : SemanticCommand} (h : c.mode = .cool) (h1 : 62 ≤ c.temperature)
    (h2 : c.temperature ≤ 86) :
    fenc c = .ok (buildFrame (powerByte c.preset)
      (fanModeByte (fanByte c.fanSpeed) (coolNib c.preset)) (BitVec.ofInt 8 c.temperature)) := by
  have hb := (coolBranch_ok_iff (fanByte c.fanSpeed) (coolNib c.preset) c.temperature _).2
    ⟨h1, h2, rfl⟩
  simp [fenc, h, modeBranch_cool h, hb]

theorem fenc_cool_error {c : SemanticCommand} (h : c.mode = .cool)
    (ht : c.temperature < 62 ∨ 86 < c.temperature) :
    fenc c = .error .temperatureOutOfRange := by
  have hb := (coolBranch_error_iff (fanByte c.fanSpeed) (coolNib c.preset) c.temperature _).2
    ⟨ht, rfl⟩
  simp [fenc, h, modeBranch_cool h, hb]

/-- FDEC after its three checks: OFF or the decode mapping (`40_framecodec.md` R140). -/
theorem fdec_cases {F : Frame} {d : DecodedCommand} (h : fdec F = .ok d) :
    F.deviceId = DEVICE_ID ∧ F.checksum = csum F.powerState F.fanMode F.tempOrMode ∧
      ((F.powerState = PWR_OFF ∧ d = ⟨.off, .none, fanOfByte F.fanMode, none⟩) ∨
        (F.powerState ≠ PWR_OFF ∧ decodeMode F = .ok d)) := by
  unfold fdec at h
  split_ifs at h <;> simp_all

/-- The decode mapping answers the row of its nibble (`40_framecodec.md` R145). -/
theorem decodeMode_cases {F : Frame} {d : DecodedCommand} (h : decodeMode F = .ok d) :
    (d.mode = .auto ∧ d.preset = .none ∧ d.temperature = none) ∨
      (d.mode = .cool ∧ d.temperature = some (byte2temp F.tempOrMode)) ∨
      (d = ⟨.dry, .none, some .low, none⟩) ∨
      (d.mode = .fanOnly ∧ d.preset = .none ∧ d.temperature = none) := by
  unfold decodeMode at h
  split_ifs at h <;> cases h <;> simp

/-- The fan speed by the number in the upper nibble (`30_encoding.md` R84). -/
theorem fanOfByte_eq (b : Byte) :
    fanOfByte b =
      if b.toNat / 16 = 1 then some .low
      else if b.toNat / 16 = 2 then some .med
      else if b.toNat / 16 = 3 then some .high
      else none := by
  revert b; decide

end Sys2Proof.Machine
end

