-- ==== Sys2Proof/Laws/PerInstr.lean ====
section
/-! SUPPORT. Statements made per instruction. `EncodedLength`: an operation is encoded in one byte, a
frame form in nine (spec/opcode_table.json, formats OP3 and FRAME72; spec/30_encoding.md R101). -/

namespace Sys2Proof.Laws.EncodedLength

/-- How many bytes the format of an instruction has. -/
def formatLength : Instr → Nat
  | .fenc => 1
  | .fdec => 1
  | .penc => 1
  | .pdec => 1
  | .send => 1
  | .recv => 1
  | .frameOff _ => 9
  | .frameAuto _ => 9
  | .frameCool _ => 9
  | .frameDry _ => 9
  | .frameFanOnly _ => 9
  | .frameEco _ => 9
  | .frameSleep _ => 9

def Statement (i : Instr) : Prop := (encode i).length = formatLength i

theorem fenc : Statement .fenc := rfl
theorem fdec : Statement .fdec := rfl
theorem penc : Statement .penc := rfl
theorem pdec : Statement .pdec := rfl
theorem send : Statement .send := rfl
theorem recv : Statement .recv := rfl
theorem frameOff (x : OffFields) : Statement (.frameOff x) := rfl
theorem frameAuto (x : OnFields) : Statement (.frameAuto x) := rfl
theorem frameCool (x : OnFields) : Statement (.frameCool x) := rfl
theorem frameDry (x : OnFields) : Statement (.frameDry x) := rfl
theorem frameFanOnly (x : OnFields) : Statement (.frameFanOnly x) := rfl
theorem frameEco (x : OnFields) : Statement (.frameEco x) := rfl
theorem frameSleep (x : OnFields) : Statement (.frameSleep x) := rfl

end Sys2Proof.Laws.EncodedLength
end

