-- ==== Sys2Proof/Laws/Step.lean ====
section
/-! SUPPORT. What executing an instruction and taking a step can do, said once. -/

namespace Sys2Proof.Machine

/-- Every instruction answers a next state (`60_exceptions.md` R236). -/
theorem exec_next (i : Instr) (s : State) : ∃ t : State, exec i s = .next t := by
  cases i with
  | fenc =>
    simp only [exec, execFenc]
    split <;> exact ⟨_, rfl⟩
  | send =>
    simp only [exec, execSend]
    split <;> exact ⟨_, rfl⟩
  | fdec => exact ⟨_, rfl⟩
  | penc => exact ⟨_, rfl⟩
  | pdec => exact ⟨_, rfl⟩
  | recv => exact ⟨_, rfl⟩
  | frameOff x => exact ⟨_, rfl⟩
  | frameAuto x => exact ⟨_, rfl⟩
  | frameCool x => exact ⟨_, rfl⟩
  | frameDry x => exact ⟨_, rfl⟩
  | frameFanOnly x => exact ⟨_, rfl⟩
  | frameEco x => exact ⟨_, rfl⟩
  | frameSleep x => exact ⟨_, rfl⟩

/-- Everything serving can do: nothing without a request; otherwise the oldest request is taken, and
its instruction is executed, or its word is rejected. -/
theorem serve_cases (run : Instr → State → Host.Outcome State Fault Refusal) (s : State) :
    (s.requests = [] ∧ serve run s = .next s) ∨
    ∃ (r : Request) (rest : List Request), s.requests = r :: rest ∧
      ((∃ i : Instr, decodeWord r.word = .ok i ∧ serve run s = run i (takeRequest r rest s)) ∨
        ∃ e : Reject, decodeWord r.word = .error e ∧
          serve run s = .next (rejectRequest e r.word (takeRequest r rest s))) := by
  cases hr : s.requests with
  | nil => exact .inl ⟨rfl, by simp [serve, hr]⟩
  | cons r rest =>
    refine .inr ⟨r, rest, rfl, ?_⟩
    cases hd : decodeWord r.word with
    | ok i => exact .inl ⟨i, rfl, by simp [serve, hr, hd]⟩
    | error e => exact .inr ⟨e, rfl, by simp [serve, hr, hd]⟩

/-- Everything a step can do. -/
theorem step_cases (s : State) :
    (s.requests = [] ∧ step s = .next s) ∨
    ∃ (r : Request) (rest : List Request), s.requests = r :: rest ∧
      ((∃ i : Instr, decodeWord r.word = .ok i ∧ step s = exec i (takeRequest r rest s)) ∨
        ∃ e : Reject, decodeWord r.word = .error e ∧
          step s = .next (rejectRequest e r.word (takeRequest r rest s))) :=
  serve_cases exec s

/-- This hardware is the build at the default parameters. -/
@[simp] theorem execIn_params (i : Instr) (s : State) : execIn Config.params i s = exec i s := by
  cases i <;> rfl

theorem stepIn_params (s : State) : stepIn Config.params s = step s := by
  have h : execIn Config.params = exec := by
    funext i t
    exact execIn_params i t
  rw [stepIn, step, h]

/-- The parameters reach PDEC and RECV and no other instruction (`10_state.md` R30). -/
theorem execIn_of_ne (p : Params) {i : Instr} (h1 : i ≠ .pdec) (h2 : i ≠ .recv) (s : State) :
    execIn p i s = exec i s := by
  cases i with
  | pdec => exact absurd rfl h1
  | recv => exact absurd rfl h2
  | _ => rfl

end Sys2Proof.Machine
end

