-- ==== Sys2Proof/Tests/Slice0.lean ====
section
/-! SUPPORT. Tests and witnesses. Every expected result is transcribed from spec/: the test names cite the
vector of spec/95_test_vectors.md or the rule. A theorem `witness_<Name>` meets all hypotheses of the
obligation of that name together. -/

namespace Sys2Proof.Tests

set_option maxRecDepth 20000

open Sys2Proof.Machine

/-! ## Helpers -/

/-- The result a step or an instruction presents. -/
def resultOf : Host.Outcome State Fault Refusal → Option Response
  | .next t => t.out
  | .fault _ => none
  | .refused _ => none

/-- The state in which an instruction finds this operand, and 0xAA bytes left in the buffer. -/
def onCommand (c : CommandOperand) : State :=
  { State.reset with cmdIn := c, F := ⟨0xAA, 0xAA, 0xAA, 0xAA, 0xAA, 0xAA, 0xAA, 0xAA, 0xAA⟩ }
def onFrame (F : Frame) : State := { State.reset with frameIn := F }
def onPulses (P : PulseSequence) : State :=
  { State.reset with
    pulsesIn := P, F := ⟨0xAA, 0xAA, 0xAA, 0xAA, 0xAA, 0xAA, 0xAA, 0xAA, 0xAA⟩ }

/-- A zero bit and a one bit on the wire. -/
def z : PulseSequence := [600, 550]
def o : PulseSequence := [600, 1600]
def zeroByte : PulseSequence := z ++ z ++ z ++ z ++ z ++ z ++ z ++ z

/-- Vector P-2 of `95_test_vectors.md`, bit by bit as its "Reading P-2" spells it. -/
def p2 : PulseSequence :=
  [8000, 4000]
    ++ (z ++ z ++ z ++ o ++ o ++ z ++ z ++ o)
    ++ zeroByte
    ++ (z ++ z ++ z ++ o ++ z ++ z ++ o ++ o)
    ++ zeroByte
    ++ (z ++ o ++ z ++ z ++ o ++ o ++ o ++ o)
    ++ zeroByte ++ zeroByte ++ zeroByte
    ++ (z ++ o ++ o ++ z ++ z ++ z ++ o ++ z)
    ++ [600]

/-- Vector P-1 of `95_test_vectors.md`. -/
def p1 : PulseSequence :=
  [8000, 4000]
    ++ (z ++ z ++ z ++ o ++ o ++ z ++ z ++ o)
    ++ (o ++ z ++ z ++ z ++ z ++ z ++ z ++ z)
    ++ (z ++ z ++ o ++ o ++ z ++ z ++ z ++ o)
    ++ zeroByte
    ++ (z ++ o ++ z ++ z ++ o ++ o ++ o ++ o)
    ++ zeroByte ++ zeroByte ++ zeroByte ++ zeroByte
    ++ [600]

/-- P-2 with every element at the low edge of its window (vector D-45). -/
def p2Low : PulseSequence := p2.map fun d =>
  if d = 8000 then 6000 else if d = 4000 then 3000 else if d = 600 then 450
  else if d = 1600 then 1200 else 413

/-- P-2 with every element at the high edge of its window (vector D-46). -/
def p2High : PulseSequence := p2.map fun d =>
  if d = 8000 then 10000 else if d = 4000 then 5000 else if d = 600 then 750
  else if d = 1600 then 2000 else 687

/-- The capture C of Program 2 of `95_test_vectors.md`. -/
def captureC : PulseSequence :=
  [7650, 4210, 510, 660, 670, 610, 560, 620, 710, 1620, 620, 1590, 480, 510, 660, 430, 590, 1510]
    ++ [510, 660, 670, 610, 560, 620, 710, 570, 620, 540, 480, 510, 660, 430, 590, 460, 510, 660, 670]
    ++ [610, 560, 620, 710, 1620, 620, 540, 480, 510, 660, 1480, 590, 1510, 510, 660, 670, 610, 560, 620]
    ++ [710, 570, 620, 540, 480, 510, 660, 430, 590, 460, 510, 660, 670, 1660, 560, 620, 710, 570, 620]
    ++ [1590, 480, 1560, 660, 1480, 590, 1510, 510, 660, 670, 610, 560, 620, 710, 570, 620, 540, 480, 510]
    ++ [660, 430, 590, 460, 510, 660, 670, 610, 560, 620, 710, 570, 620, 540, 480, 510, 660, 430, 590]
    ++ [460, 510, 660, 670, 610, 560, 620, 710, 570, 620, 540, 480, 510, 660, 430, 590, 460, 510, 660]
    ++ [670, 1660, 560, 1670, 710, 570, 620, 540, 480, 510, 660, 1480, 590, 460, 580, 21000, 8100]

def offFrame : Frame := ⟨0x19, 0x00, 0x13, 0x00, 0x4F, 0x00, 0x00, 0x00, 0x62⟩
def coolFrame : Frame := ⟨0x19, 0x80, 0x31, 0x00, 0x4F, 0x00, 0x00, 0x00, 0x00⟩

/-! ## WellFormed: one ill-formed term for each check -/

def powerOff : OnFields := ⟨0x00, 3, 0, 0x4F, 0, 0, 0⟩

theorem test_wf_auto : (Instr.frameAuto powerOff).wellFormed = false := by decide
theorem test_wf_cool : (Instr.frameCool powerOff).wellFormed = false := by decide
theorem test_wf_dry : (Instr.frameDry powerOff).wellFormed = false := by decide
theorem test_wf_fanOnly : (Instr.frameFanOnly powerOff).wellFormed = false := by decide
theorem test_wf_eco : (Instr.frameEco powerOff).wellFormed = false := by decide
theorem test_wf_sleep : (Instr.frameSleep powerOff).wellFormed = false := by decide
theorem test_wf_power_01 : (Instr.frameCool ⟨0x01, 1, 0, 0xFF, 0, 0, 0⟩).wellFormed = true := by
  decide

/-! ## Decode: words written out from `30_encoding.md` R102 and R80 to R89 -/

theorem test_decode_ops :
    decode [0b00000000] = .ok .fenc ∧ decode [0b00000001] = .ok .fdec ∧
      decode [0b00000010] = .ok .penc ∧ decode [0b00000011] = .ok .pdec ∧
      decode [0b00000100] = .ok .send ∧ decode [0b00000101] = .ok .recv := by decide

theorem test_decode_reserved_ops :
    decode [0b00000110] = .error .reservedOpCode ∧ decode [0b00000111] = .error .reservedOpCode ∧
      decode [0b00001000] = .error .opTooWide ∧ decode [] = .error .wrongLength ∧
      decode [0, 0] = .error .wrongLength := by decide

/-- S-4: fan nibble 0001, mode nibble 0011, sentinel 0x4F. -/
theorem test_decode_off :
    decode [0b00011001, 0b00000000, 0b00010011, 0, 0b01001111, 0, 0, 0, 0b01100010]
      = .ok (.frameOff ⟨0x13, 0, 0x4F, 0, 0, 0⟩) := by decide

/-- G-4: fan nibble 0010, mode nibble 0000. -/
theorem test_decode_auto :
    decode [0b00011001, 0b10000000, 0b00100000, 0, 0b01001000, 0, 0, 0, 0b11101000]
      = .ok (.frameAuto ⟨0x80, 2, 0, 0x48, 0, 0, 0⟩) := by decide

/-- G-24: fan nibble 0011, mode nibble 0001, reserved bytes not zero. -/
theorem test_decode_cool :
    decode [0b00011001, 0b10000000, 0b00110001, 0b11111111, 0b01001111, 0, 0b10101010, 0, 0]
      = .ok (.frameCool ⟨0x80, 3, 0xFF, 0x4F, 0, 0xAA, 0⟩) := by decide

/-- G-22: fan nibble 1111, mode nibble 0010. -/
theorem test_decode_dry :
    decode [0b00011001, 0b10000000, 0b11110010, 0, 0b01001111, 0, 0, 0, 0b11000001]
      = .ok (.frameDry ⟨0x80, 0xF, 0, 0x4F, 0, 0, 0⟩) := by decide

/-- G-5: fan nibble 0011, mode nibble 0011. -/
theorem test_decode_fanOnly :
    decode [0b00011001, 0b10000000, 0b00110011, 0, 0b01001111, 0, 0, 0, 0b00000010]
      = .ok (.frameFanOnly ⟨0x80, 3, 0, 0x4F, 0, 0, 0⟩) := by decide

/-- G-2: fan nibble 0010, mode nibble 0101. -/
theorem test_decode_eco :
    decode [0b00011001, 0b10000000, 0b00100101, 0, 0b01001000, 0, 0, 0, 0b11101101]
      = .ok (.frameEco ⟨0x80, 2, 0, 0x48, 0, 0, 0⟩) := by decide

/-- G-29: power byte 0x7F, fan nibble 0010, mode nibble 0110. -/
theorem test_decode_sleep :
    decode [0b00011001, 0b01111111, 0b00100110, 0, 0b00111110, 0, 0, 0, 0b11100011]
      = .ok (.frameSleep ⟨0x7F, 2, 0, 0x3E, 0, 0, 0⟩) := by decide

/-- G-12, G-18, G-15, G-16, G-17: the checks in their order. -/
theorem test_decode_rejects :
    decode [0x18, 0x80, 0x31, 0, 0x4F, 0, 0, 0, 0xFF] = .error .badDeviceId ∧
      decode [0x19, 0x80, 0x34, 0, 0x4F, 0, 0, 0, 0x00] = .error .checksumMismatch ∧
      decode [0x19, 0x80, 0x34, 0, 0x4F, 0, 0, 0, 0x03] = .error .unknownModeNibble ∧
      decode [0x19, 0x80, 0x37, 0, 0x4F, 0, 0, 0, 0x06] = .error .unknownModeNibble ∧
      decode [0x19, 0x80, 0x3F, 0, 0x4F, 0, 0, 0, 0x0E] = .error .unknownModeNibble := by decide

/-- Program 1: `W` = 0x19803100_4F000000_00. -/
theorem test_table_word :
    decodeTableWord 72 0x19803100_4F000000_00 = some (.frameCool ⟨0x80, 3, 0, 0x4F, 0, 0, 0⟩) ∧
      decodeTableWord 3 5 = some .recv ∧ decodeTableWord 8 6 = none := by decide

/-- S-4 and F-6 as bytes. -/
theorem test_encode :
    encode (.frameOff ⟨0x13, 0, 0x4F, 0, 0, 0⟩) = [0x19, 0, 0x13, 0, 0x4F, 0, 0, 0, 0x62] ∧
      encode (.frameSleep ⟨0x81, 1, 0, 0x4B, 0, 0, 0⟩)
        = [0x19, 0x81, 0x16, 0, 0x4B, 0, 0, 0, 0xE2] ∧
      encode .recv = [0b101] := by decide

/-! ## The command word: Programs 1, 2 and 4 -/

theorem test_command_word :
    commandOfWord 0x4F99 = some ⟨.cool, .none, .high, 79⟩ ∧
      wordOfCommand ⟨.cool, .none, .high, 79⟩ = 0x4F99 ∧
      wordOfDecoded ⟨.cool, .none, some .high, some 79⟩ = 0x4F99 ∧
      wordOfDecoded ⟨.off, .none, some .low, none⟩ = 0x0008 := by decide

theorem test_command_word_reserved :
    commandOfWord 0x480E = none ∧ commandOfWord 0x480F = none ∧ commandOfWord 0x4801 = none ∧
      commandOfWord 0x4869 = none := by decide

/-! ## The helper functions: section 2.1 of `95_test_vectors.md` -/

/-- H-1, H-7, H-9. -/
theorem test_csum : csum 0x80 0x31 0x4F = 0x00 ∧ csum 0xFF 0xFF 0xFF = 0xFD ∧
    csum 0x01 0xFF 0x00 = 0x00 := by decide

/-- H-10, H-13, H-14, H-15, H-17. -/
theorem test_temp2byte :
    temp2byte 62 = .ok 0x3E ∧ temp2byte 86 = .ok 0x56 ∧
      temp2byte 61 = .error .temperatureOutOfRange ∧
      temp2byte 87 = .error .temperatureOutOfRange ∧
      temp2byte (-5) = .error .temperatureOutOfRange := by decide

/-- H-21, H-24. -/
theorem test_byte2temp : byte2temp 0x00 = 0 ∧ byte2temp 0xFF = 255 := by decide

/-- M-1 to M-5, at the edges where an off-by-one shows. -/
theorem test_match :
    matchDur 25 5999 8000 = false ∧ matchDur 25 6000 8000 = true ∧
      matchDur 25 5000 4000 = true ∧ matchDur 25 5001 4000 = false ∧
      matchDur 25 412 550 = false ∧ matchDur 25 413 550 = true ∧
      matchDur 25 687 550 = true ∧ matchDur 25 688 550 = false ∧ matchDur 25 0 600 = false := by
  decide

/-! ## One step of each operation -/

/-- F-7: SLEEP, the checksum wraps. -/
theorem test_fenc_sleep_high_86 :
    exec .fenc (onCommand (.typed ⟨.cool, .sleep, .high, 86⟩)) =
      .next { onCommand (.typed ⟨.cool, .sleep, .high, 86⟩) with
        F := ⟨0x19, 0x81, 0x36, 0x00, 0x56, 0x00, 0x00, 0x00, 0x0D⟩
        out := some (.ok (.frame ⟨0x19, 0x81, 0x36, 0x00, 0x56, 0x00, 0x00, 0x00, 0x0D⟩)) } := rfl

/-- F-18: HEAT before the temperature; the buffer stays. -/
theorem test_fenc_heat :
    exec .fenc (onCommand (.typed ⟨.heat, .sleep, .low, 300⟩)) =
      .next { onCommand (.typed ⟨.heat, .sleep, .low, 300⟩) with
        out := some (.err .unsupportedMode) } := rfl

/-- G-19: OFF before the nibble is looked at. -/
theorem test_fdec_off_any_nibble :
    exec .fdec (onFrame ⟨0x19, 0x00, 0x34, 0x00, 0x00, 0x00, 0x00, 0x00, 0x34⟩) =
      .next { onFrame ⟨0x19, 0x00, 0x34, 0x00, 0x00, 0x00, 0x00, 0x00, 0x34⟩ with
        F := ⟨0x19, 0x00, 0x34, 0x00, 0x00, 0x00, 0x00, 0x00, 0x34⟩
        out := some (.ok (.command ⟨.off, .none, some .high, none⟩)) } := rfl

/-- G-12: both defects, the device id wins. -/
theorem test_fdec_bad_id_first :
    resultOf (exec .fdec (onFrame ⟨0x18, 0x80, 0x31, 0x00, 0x4F, 0x00, 0x00, 0x00, 0xFF⟩)) =
      some (.err .badDeviceId) := rfl

/-- P-2. -/
theorem test_penc_off_frame : resultOf (exec .penc (onFrame offFrame)) = some (.ok (.pulses p2)) := by
  decide

/-- P-5: bytes in order, most significant bit first. -/
theorem test_penc_bit_order :
    resultOf (exec .penc (onFrame ⟨0x80, 0x01, 0, 0, 0, 0, 0, 0, 0⟩)) =
      some (.ok (.pulses (([8000, 4000] ++ zeroByte ++ zeroByte ++ zeroByte ++ zeroByte ++ zeroByte
        ++ zeroByte ++ zeroByte ++ zeroByte ++ zeroByte ++ [600]).set 3 1600 |>.set 33 1600))) := by
  decide

/-- D-45: the whole frame at the bottom of every window. -/
theorem test_pdec_low_edges :
    resultOf (exec .pdec (onPulses p2Low)) = some (.ok (.frame offFrame)) := by decide

/-- D-42: the mismatch at pair 5 is met before the truncation. -/
theorem test_pdec_first_defect :
    resultOf (exec .pdec (onPulses ((p2.take 50).set 13 1000))) =
      some (.err .bitPatternMismatch) := by decide

/-- V-1, by the command word of Program 1. -/
theorem test_send_program_1 :
    resultOf (exec .send (onCommand (.word 0x4F99))) = some (.ok (.pulses p1)) := by decide

/-- V-4: FENC's failure passes through. -/
theorem test_send_out_of_range :
    exec .send (onCommand (.typed ⟨.cool, .none, .low, 87⟩)) =
      .next { onCommand (.typed ⟨.cool, .none, .low, 87⟩) with
        out := some (.err .temperatureOutOfRange) } := rfl

/-- Program 2. -/
theorem test_recv_capture_C :
    resultOf (exec .recv (onPulses captureC)) =
      some (.ok (.command ⟨.off, .none, some .low, none⟩)) := by decide

/-- Program 3, line 1. -/
theorem test_recv_bad_checksum :
    resultOf (exec .recv (onPulses (p2.set 145 1600))) = some (.err .checksumMismatch) := by decide

/-! ## One step from reset on each frame form: vectors G-19, G-4, G-20, G-22, G-5, G-2, G-29 -/

theorem test_frame_off :
    resultOf (step (State.reset.withFetchWord 72 0x190034000000000034)) =
      some (.ok (.command ⟨.off, .none, some .high, none⟩)) := by decide
theorem test_frame_auto :
    resultOf (step (State.reset.withFetchWord 72 0x1980200048000000E8)) =
      some (.ok (.command ⟨.auto, .none, some .med, none⟩)) := by decide
theorem test_frame_cool :
    resultOf (step (State.reset.withFetchWord 72 0x198041004800000009)) =
      some (.ok (.command ⟨.cool, .none, none, some 72⟩)) := by decide
theorem test_frame_dry :
    resultOf (step (State.reset.withFetchWord 72 0x1980F2004F000000C1)) =
      some (.ok (.command ⟨.dry, .none, some .low, none⟩)) := by decide
theorem test_frame_fanOnly :
    resultOf (step (State.reset.withFetchWord 72 0x198033004F00000002)) =
      some (.ok (.command ⟨.fanOnly, .none, some .high, none⟩)) := by decide
theorem test_frame_eco :
    resultOf (step (State.reset.withFetchWord 72 0x1980250048000000ED)) =
      some (.ok (.command ⟨.cool, .eco, some .med, some 72⟩)) := by decide
theorem test_frame_sleep :
    resultOf (step (State.reset.withFetchWord 72 0x197F26003E000000E3)) =
      some (.ok (.command ⟨.cool, .sleep, some .med, some 62⟩)) := by decide

/-- G-15 presented as a request: FDEC's failure. -/
theorem test_frame_unknown_nibble :
    resultOf (step (State.reset.withFetchWord 72 0x198034004F00000003)) =
      some (.err .unknownModeNibble) := by decide

/-- R102: code 110 is refused and nothing starts. -/
theorem test_reserved_op_refused :
    step (State.reset.withFetchWord 8 6) = .next State.reset := rfl

/-! ## Witnesses: the hypotheses of each obligation, met together -/

/-- A state with one request waiting, presented to the machine after reset. -/
def waiting (w : PortWord) (c : CommandOperand) (P : PulseSequence) : State :=
  submit ⟨w, c, coolFrame, P⟩ State.reset

def cool79 : SemanticCommand := ⟨.cool, .none, .high, 79⟩

theorem witness_EveryStepKeepsTheInvariant :
    ∃ t : State, (waiting (.op3 4) (.typed cool79) []).Inv ∧
      step (waiting (.op3 4) (.typed cool79) []) = .next t ∧ t.emitPos = 147 :=
  ⟨_, ⟨rfl, ⟨rfl, rfl, rfl⟩, .inl ⟨rfl, rfl⟩, trivial⟩, rfl, by decide⟩

theorem witness_StepRunsTheDecodedInstruction :
    (waiting (.frame72 offFrame) (.word 0) []).requests = [⟨.frame72 offFrame, .word 0, coolFrame, []⟩] ∧
      decodeWord (.frame72 offFrame) = .ok (.frameOff ⟨0x13, 0, 0x4F, 0, 0, 0⟩) := by decide

theorem witness_StepWithNoRequestChangesNothing : State.reset.requests = [] := rfl

theorem witness_ReservedOperationCodeIsRefused :
    (waiting (.op3 6) (.word 0) []).requests = [⟨.op3 6, .word 0, coolFrame, []⟩] ∧
      (waiting (.op3 7) (.word 0) []).requests = [⟨.op3 7, .word 0, coolFrame, []⟩] := by decide

/-- SEND with a command word that stands for a command, and RECV with one that does not. -/
theorem witness_EveryTypedRequestEndsInAResult :
    ((waiting (.op3 4) (.word 0x4F99) []).requests = [⟨.op3 4, .word 0x4F99, coolFrame, []⟩] ∧
      PortWord.op3 4 ≠ .op3 6 ∧ PortWord.op3 4 ≠ .op3 7 ∧
      (CommandOperand.word 0x4F99).command = some cool79) ∧
    ((waiting (.op3 5) (.word 0x0000) p2).requests = [⟨.op3 5, .word 0x0000, coolFrame, p2⟩] ∧
      PortWord.op3 5 ≠ .op3 6 ∧ PortWord.op3 5 ≠ .op3 7 ∧
      ¬(PortWord.op3 5 = .op3 0 ∨ PortWord.op3 5 = .op3 4)) := by decide

theorem witness_ResultDependsOnTheRequestAlone :
    (waiting (.op3 0) (.word 0x4F99) []).requests = [⟨.op3 0, .word 0x4F99, coolFrame, []⟩] := by
  decide

/-- One well-formed term of each constructor, power bytes 0x01, 0x80, 0x81, 0xFF and the extreme fan
nibbles among them. -/
theorem witness_DecodeOfEncodeIsTheInstruction :
    ([.fenc, .fdec, .penc, .pdec, .send, .recv, .frameOff ⟨0xFF, 0, 0, 0, 0, 0⟩,
      .frameAuto ⟨0x01, 0, 0, 0, 0, 0, 0⟩, .frameCool ⟨0xFF, 0xF, 0, 0xFF, 0, 0, 0⟩,
      .frameDry ⟨0x80, 1, 0, 0x4F, 0, 0, 0⟩, .frameFanOnly ⟨0x80, 3, 0, 0x4F, 0, 0, 0⟩,
      .frameEco ⟨0x80, 2, 0, 0x48, 0, 0, 0⟩, .frameSleep ⟨0x81, 1, 0, 0x4B, 0, 0, 0⟩] :
      List Instr).all Instr.wellFormed = true := by decide

theorem witness_EncodeOfDecodeIsTheWord :
    decode [0x19, 0x80, 0x31, 0, 0x4F, 0, 0, 0, 0] = .ok (.frameCool ⟨0x80, 3, 0, 0x4F, 0, 0, 0⟩) ∧
      decode [5] = .ok .recv := by decide

/-- Both sides: an accepted frame, and one whose nibble is unknown. -/
theorem witness_FrameWordDecodesExactlyWhenFdecAccepts :
    (onFrame coolFrame).frameIn = coolFrame ∧ ChecksPass coolFrame ∧ modeNibbleOf coolFrame = 1 ∧
      ChecksPass ⟨0x19, 0x80, 0x34, 0, 0x4F, 0, 0, 0, 0x03⟩ ∧
      modeNibbleOf ⟨0x19, 0x80, 0x34, 0, 0x4F, 0, 0, 0, 0x03⟩ = 4 :=
  ⟨rfl, ⟨rfl, rfl⟩, rfl, ⟨rfl, rfl⟩, rfl⟩

/-- The ends of the temperature range, and the word of Program 1 with its numbers. -/
theorem witness_CommandWordCarriesTheCommand :
    (0 : Int) ≤ (⟨.heat, .sleep, .high, 255⟩ : SemanticCommand).temperature ∧
      (⟨.heat, .sleep, .high, 255⟩ : SemanticCommand).temperature ≤ 255 ∧
      commandOfWord (wordOfCommand ⟨.heat, .sleep, .high, 255⟩) = some ⟨.heat, .sleep, .high, 255⟩ ∧
      commandOfWord (wordOfCommand ⟨.off, .none, .low, 0⟩) = some ⟨.off, .none, .low, 0⟩ ∧
      (0x4F99 : BitVec 16).toNat % 8 = modeNumber .cool ∧
      (0x4F99 : BitVec 16).toNat / 8 % 4 = fanNumber .high ∧
      (0x4F99 : BitVec 16).toNat / 32 % 4 = presetNumber .none ∧
      (0x4F99 : BitVec 16).toNat / 256 = 79 := by
  decide

theorem witness_ResultWordCarriesTheDecodedCommand :
    DecodedCommand.Legal ⟨.cool, .sleep, none, some 255⟩ ∧
      DecodedCommand.Legal ⟨.off, .none, some .high, none⟩ :=
  ⟨⟨by decide, by decide, by decide, by decide, fun _ => ⟨255, rfl, by decide, by decide⟩⟩,
    ⟨by decide, by decide, by decide, by decide, by decide⟩⟩

theorem witness_FencOffBuildsTheOneOffFrame :
    (onCommand (.typed ⟨.off, .sleep, .high, -1⟩)).cmdIn.command = some ⟨.off, .sleep, .high, -1⟩ ∧
      (⟨.off, .sleep, .high, -1⟩ : SemanticCommand).mode = .off := by decide

/-- Each of the three modes, with the other presets and a temperature out of range. -/
theorem witness_FencSentinelModesBuildTheirFrames :
    ([⟨.fanOnly, .sleep, .low, 300⟩, ⟨.auto, .eco, .high, -300⟩, ⟨.dry, .none, .high, 0⟩] :
      List SemanticCommand).all (fun c =>
        (onCommand (.typed c)).cmdIn.command = some c ∧
          (c.mode = .fanOnly ∨ c.mode = .auto ∨ c.mode = .dry)) = true := by decide

/-- Each preset, at 62 and at 86. -/
theorem witness_FencCoolBuildsItsFrame :
    ([⟨.cool, .none, .low, 62⟩, ⟨.cool, .eco, .med, 86⟩, ⟨.cool, .sleep, .high, 86⟩,
      ⟨.cool, .sleep, .high, 62⟩] : List SemanticCommand).all (fun c =>
        (onCommand (.typed c)).cmdIn.command = some c ∧ c.mode = .cool ∧ 62 ≤ c.temperature ∧
          c.temperature ≤ 86) = true := by decide

theorem witness_FencHeatFailsWithNoFrame :
    (onCommand (.word 0x000D)).cmdIn.command = some ⟨.heat, .none, .low, 0⟩ := by decide

/-- 61 and 87 raise; the operands of the second clause, 62 and 86; a frame of the third, with the
temperature byte 0xFF (G-25). -/
theorem witness_TemperatureOutOfRangeIsRaisedExactlyByCool :
    resultOf (exec .fenc (onCommand (.typed ⟨.cool, .none, .low, 61⟩))) =
        some (.err .temperatureOutOfRange) ∧
      resultOf (exec .send (onCommand (.typed ⟨.cool, .eco, .low, 87⟩))) =
        some (.err .temperatureOutOfRange) ∧
      (onCommand (.typed ⟨.cool, .none, .low, 62⟩)).cmdIn.command = some ⟨.cool, .none, .low, 62⟩ ∧
      (onCommand (.typed ⟨.cool, .sleep, .low, 86⟩)).cmdIn.command = some ⟨.cool, .sleep, .low, 86⟩ ∧
      ChecksPass (onFrame ⟨0x19, 0x01, 0x11, 0, 0xFF, 0, 0, 0, 0x11⟩).frameIn ∧
      modeNibbleOf ⟨0x19, 0x01, 0x11, 0, 0xFF, 0, 0, 0, 0x11⟩ ∈ [1, 5, 6] :=
  ⟨by decide, by decide, rfl, rfl, ⟨rfl, rfl⟩, by decide⟩

theorem witness_UnsupportedModeIsRaisedExactlyByHeat :
    resultOf (exec .send (onCommand (.typed ⟨.heat, .none, .low, 72⟩))) =
        some (.err .unsupportedMode) ∧
      resultOf (exec .fdec (onFrame coolFrame)) =
        some (.ok (.command ⟨.cool, .none, some .high, some 79⟩)) := by decide

/-- A reserved mode code (6 and 7), fan code 0, preset code 3. -/
theorem witness_ReservedCommandCodesAreRefused :
    ([0x480E, 0x480F, 0x4801, 0x4869] : List (BitVec 16)).all (fun cw =>
      (onCommand (.word cw)).cmdIn = .word cw ∧
        (6 ≤ cw.toNat % 8 ∨ cw.toNat / 8 % 4 = 0 ∨ cw.toNat / 32 % 4 = 3)) = true := by decide

/-- Both ends: 0x36 is one of the sixteen and is built; the frame's own byte is read back. -/
theorem witness_FencFanModeBytesAreTheSixteen :
    ∃ (s t : State) (F : Frame),
      exec .fenc s = .next t ∧ t.out = some (.ok (.frame F)) ∧ F.fanMode = 0x36 :=
  ⟨onCommand (.typed ⟨.cool, .sleep, .high, 86⟩), _, _, rfl, rfl, rfl⟩

theorem witness_FencFramesCarryTheirChecksum :
    ∃ t v : State, exec .fenc (onCommand (.typed cool79)) = .next t ∧
      t.out = some (.ok (.frame coolFrame)) ∧ (onFrame coolFrame).frameIn = coolFrame ∧
      exec .fdec (onFrame coolFrame) = .next v := ⟨_, _, rfl, rfl, rfl, rfl⟩

/-- One frame for each of the three failures. -/
theorem witness_FdecRaisesItsFailuresInOrder :
    (onFrame ⟨0x18, 0x80, 0x31, 0, 0x4F, 0, 0, 0, 0xFF⟩).frameIn.deviceId ≠ 0x19 ∧
      ((onFrame ⟨0x19, 0x80, 0x34, 0, 0x4F, 0, 0, 0, 0x00⟩).frameIn.deviceId = 0x19 ∧
        (0x00 : Byte).toNat ≠ sumOfFrame ⟨0x19, 0x80, 0x34, 0, 0x4F, 0, 0, 0, 0x00⟩) ∧
      (ChecksPass (onFrame ⟨0x19, 0x80, 0x3F, 0, 0x4F, 0, 0, 0, 0x0E⟩).frameIn ∧
        modeNibbleOf ⟨0x19, 0x80, 0x3F, 0, 0x4F, 0, 0, 0, 0x0E⟩ ∉ [0, 1, 2, 3, 5, 6]) :=
  ⟨by decide, by decide, ⟨rfl, rfl⟩, by decide⟩

theorem witness_FdecPowerOffIsOffUnconditionally :
    ChecksPass (onFrame ⟨0x19, 0, 0x34, 0, 0, 0, 0, 0, 0x34⟩).frameIn ∧
      (onFrame ⟨0x19, 0, 0x34, 0, 0, 0, 0, 0, 0x34⟩).frameIn.powerState = 0 := ⟨⟨rfl, rfl⟩, rfl⟩

/-- The frames of vectors G-4, G-25, G-22, G-5, G-2, G-29: one for each nibble. -/
def oneOfEachForm : List (Frame × DecodedCommand) :=
  [(⟨0x19, 0x80, 0x20, 0, 0x48, 0, 0, 0, 0xE8⟩, ⟨.auto, .none, some .med, none⟩),
    (⟨0x19, 0x01, 0x11, 0, 0xFF, 0, 0, 0, 0x11⟩, ⟨.cool, .none, some .low, some 255⟩),
    (⟨0x19, 0x80, 0xF2, 0, 0x4F, 0, 0, 0, 0xC1⟩, ⟨.dry, .none, some .low, none⟩),
    (⟨0x19, 0x80, 0x33, 0, 0x4F, 0, 0, 0, 0x02⟩, ⟨.fanOnly, .none, some .high, none⟩),
    (⟨0x19, 0x80, 0x25, 0, 0x48, 0, 0, 0, 0xED⟩, ⟨.cool, .eco, some .med, some 72⟩),
    (⟨0x19, 0x7F, 0x26, 0, 0x3E, 0, 0, 0, 0xE3⟩, ⟨.cool, .sleep, some .med, some 62⟩)]

theorem witness_FdecMapsEachModeNibble :
    ∀ p ∈ oneOfEachForm, ChecksPass (onFrame p.1).frameIn ∧ p.1.powerState ≠ 0 ∧
      resultOf (exec .fdec (onFrame p.1)) = some (.ok (.command p.2)) := by
  unfold ChecksPass; decide

theorem witness_DecodesTo_of_each_form :
    ∀ p ∈ oneOfEachForm, ChecksPass p.1 ∧ DecodesTo p.1 p.2 := by
  unfold ChecksPass DecodesTo; decide

theorem witness_FdecDoesNotReadTheReservedBytes :
    ∃ t v : State,
      exec .fdec (onFrame ⟨0x19, 0x80, 0x31, 0xFF, 0x4F, 0, 0xAA, 0, 0⟩) = .next t ∧
        exec .fdec (onFrame coolFrame) = .next v ∧
        t.out = some (.ok (.command ⟨.cool, .none, some .high, some 79⟩)) ∧ t.out = v.out :=
  ⟨_, _, rfl, rfl, rfl, rfl⟩

/-- A flipped bit in byte 8 (bit 7), byte 0 (bit 0) and byte 3 (bit 0) of an accepted frame. -/
theorem witness_SingleBitChangesAreDetectedWhereTheChecksReach :
    resultOf (exec .fdec (onFrame coolFrame)) =
        some (.ok (.command ⟨.cool, .none, some .high, some 79⟩)) ∧
      resultOf (exec .fdec { onFrame coolFrame with frameIn := flipBit coolFrame 8 7 }) =
        some (.err .checksumMismatch) ∧
      resultOf (exec .fdec { onFrame coolFrame with frameIn := flipBit coolFrame 0 0 }) =
        some (.err .badDeviceId) ∧
      resultOf (exec .fdec { onFrame coolFrame with frameIn := flipBit coolFrame 3 0 }) =
        some (.ok (.command ⟨.cool, .none, some .high, some 79⟩)) := by decide

/-- The canonical domain at its ends, DRY and OFF among it. -/
theorem witness_FrameRoundTripReproducesTheCommand :
    ∀ c ∈ ([⟨.cool, .eco, .low, 62⟩, ⟨.cool, .sleep, .high, 86⟩, ⟨.dry, .none, .high, 0⟩,
        ⟨.off, .none, .high, 300⟩, ⟨.auto, .none, .med, -1⟩, ⟨.fanOnly, .none, .low, 0⟩] :
        List SemanticCommand),
      (onCommand (.typed c)).cmdIn.command = some c ∧ c.Canonical := by decide

theorem witness_PencElementsFollowTheMap :
    ∃ (t : State) (P : PulseSequence), exec .penc (onFrame offFrame) = .next t ∧
      t.out = some (.ok (.pulses P)) ∧ P = p2 := ⟨_, _, rfl, rfl, by decide⟩

theorem witness_PencEmitsExactConstantsOnly :
    ∃ (t : State) (P : PulseSequence), exec .penc (onFrame coolFrame) = .next t ∧
      t.out = some (.ok (.pulses P)) ∧ P = p1 := ⟨_, _, rfl, rfl, by decide⟩

/-- P-3 and P-4, the ends of the range. -/
theorem witness_PencTotalDurationCountsTheOnes :
    ∃ (t u : State) (P Q : PulseSequence),
      exec .penc (onFrame ⟨0, 0, 0, 0, 0, 0, 0, 0, 0⟩) = .next t ∧ t.out = some (.ok (.pulses P)) ∧
        P.sum = 95400 ∧
      exec .penc (onFrame ⟨0xFF, 0xFF, 0xFF, 0xFF, 0xFF, 0xFF, 0xFF, 0xFF, 0xFF⟩) = .next u ∧
        u.out = some (.ok (.pulses Q)) ∧ Q.sum = 171000 :=
  ⟨_, _, _, _, rfl, rfl, by decide, rfl, rfl, by decide⟩

/-- Program 2, steps 1, 9 and 72: after 0, 8 and 71 bits. -/
theorem witness_ScanRegistersCountTheBits :
    (scanRun 25 captureC 1 scanStart).phase = .expectBit ∧
      (scanRun 25 captureC 9 scanStart).phase = .expectBit ∧
      (scanRun 25 captureC 9 scanStart).byteIndex = 1 ∧
      (scanRun 25 captureC 9 scanStart).F.deviceId = 0x19 ∧
      (scanRun 25 captureC 72 scanStart).phase = .expectBit ∧
      (scanRun 25 captureC 72 scanStart).pos = 144 := by decide

/-- Does pair `n` of `P` read as `b` at TOL_PCT = 25? -/
def pairCheck (P : PulseSequence) (n : Nat) (b : Bool) : Bool :=
  match P[2 + 2 * n]?, P[3 + 2 * n]? with
  | some x, some y =>
    decide (450 ≤ x ∧ x ≤ 750) &&
      (if b then decide (1200 ≤ y ∧ y ≤ 2000) else decide (413 ≤ y ∧ y ≤ 687))
  | _, _ => false

theorem pairCheck_reads {P : PulseSequence} {n : Nat} {b : Bool} (h : pairCheck P n b = true) :
    ∃ x y : Nat, P[2 + 2 * n]? = some x ∧ P[3 + 2 * n]? = some y ∧ PairReads b x y := by
  unfold pairCheck at h
  split at h
  · next x y hx hy => exact ⟨x, y, hx, hy, by
      cases b <;> simpa [PairReads, and_assoc] using h⟩
  · cases h

/-- All 72 pairs of `P` read as the bits of `F`. -/
theorem spells_of_check {P : PulseSequence} {F : Frame}
    (h : (List.range 72).all (fun n => pairCheck P n (F.wireBit n)) = true) (n : Nat) (hn : n < 72) :
    ∃ x y : Nat, P[2 + 2 * n]? = some x ∧ P[3 + 2 * n]? = some y ∧ PairReads (F.wireBit n) x y :=
  pairCheck_reads (List.all_eq_true.1 h n (List.mem_range.2 hn))

/-- D-45 and D-46: the low and the high edge of every window. -/
theorem witness_PdecReadsTheFrameTheSpacesSpell :
    (p2Low[0]? = some 6000 ∧ p2Low[1]? = some 3000 ∧ HeaderInWindow 6000 3000 ∧
      ∀ n : Nat, n < 72 → ∃ a b : Nat, p2Low[2 + 2 * n]? = some a ∧ p2Low[3 + 2 * n]? = some b ∧
        PairReads (offFrame.wireBit n) a b) ∧
    (p2High[0]? = some 10000 ∧ p2High[1]? = some 5000 ∧ HeaderInWindow 10000 5000 ∧
      ∀ n : Nat, n < 72 → ∃ a b : Nat, p2High[2 + 2 * n]? = some a ∧ p2High[3 + 2 * n]? = some b ∧
        PairReads (offFrame.wireBit n) a b) :=
  ⟨⟨rfl, rfl, by unfold HeaderInWindow; decide, spells_of_check (by decide)⟩,
    ⟨rfl, rfl, by unfold HeaderInWindow; decide, spells_of_check (by decide)⟩⟩

/-- Lengths 0 and 1; the header at each edge it can miss (D-15, D-18, D-19, D-22). -/
theorem witness_PdecJudgesTheHeaderPair :
    (onPulses []).pulsesIn.length < 2 ∧ (onPulses [8000]).pulsesIn.length < 2 ∧
      (onPulses [5999, 4000]).pulsesIn[0]? = some 5999 ∧
      (onPulses [5999, 4000]).pulsesIn[1]? = some 4000 ∧
      ¬HeaderInWindow 5999 4000 ∧ ¬HeaderInWindow 10001 4000 ∧ ¬HeaderInWindow 8000 2999 ∧
      ¬HeaderInWindow 8000 5001 := by
  unfold HeaderInWindow; decide

/-- The first pair (D-23) and the last (D-40). -/
theorem witness_PdecStopsAtTheFirstBadPair :
    ((p2.set 2 449)[2]? = some 449 ∧ ¬PairReads true 449 550 ∧ ¬PairReads false 449 550) ∧
      (HeaderInWindow 8000 4000 ∧
        (∀ k : Nat, k < 71 → ∃ (x y : Nat) (bit : Bool), (p2.set 145 3000)[2 + 2 * k]? = some x ∧
          (p2.set 145 3000)[3 + 2 * k]? = some y ∧ PairReads bit x y) ∧
        (p2.set 145 3000)[144]? = some 600 ∧ (p2.set 145 3000)[145]? = some 3000 ∧
        ¬PairReads true 600 3000 ∧ ¬PairReads false 600 3000) := by
  refine ⟨⟨rfl, by simp [PairReads], by simp [PairReads]⟩, by unfold HeaderInWindow; decide,
    fun k hk => ?_, rfl, rfl, by simp [PairReads], by simp [PairReads]⟩
  have h : (List.range 71).all (fun n => pairCheck (p2.set 145 3000) n (offFrame.wireBit n)) = true := by
    decide
  obtain ⟨x, y, hx, hy, hr⟩ := pairCheck_reads (List.all_eq_true.1 h k (List.mem_range.2 hk))
  exact ⟨x, y, _, hx, hy, hr⟩

/-- The elements of `P` in its whole pairs are inside the windows of the layout of `F`. -/
theorem matches_of_check {tol : Nat} {P : PulseSequence} {F : Frame}
    (h : (List.range 146).all (fun k => !decide (k < 2 * (P.length / 2)) ||
      matchDur tol (P.getD k 0) ((penc F)[k]?.getD 0)) = true)
    (k d : Nat) (hk : k < 146) (hk' : k < 2 * (P.length / 2)) (hd : P[k]? = some d) :
    matchDur tol d ((penc F)[k]?.getD 0) = true := by
  have hk2 := List.all_eq_true.1 h k (List.mem_range.2 hk)
  simpa [hk', List.getD_eq_getElem?_getD, hd] using hk2

/-- A whole sequence in the build at 0, the low edges in the build at 25, and in the build at 48 one
element short of 146. -/
theorem witness_PdecDecodesOrIsTruncatedByLength :
    ((⟨0, 32⟩ : Params).Legal ∧
      (∀ k d : Nat, k < 146 → k < 2 * ((onPulses p2).pulsesIn.length / 2) →
        (onPulses p2).pulsesIn[k]? = some d →
        matchDur 0 d ((penc offFrame)[k]?.getD 0) = true) ∧ 146 ≤ (onPulses p2).pulsesIn.length) ∧
    (Config.params.Legal ∧ ∀ k d : Nat, k < 146 → k < 2 * ((onPulses p2Low).pulsesIn.length / 2) →
        (onPulses p2Low).pulsesIn[k]? = some d →
        matchDur 25 d ((penc offFrame)[k]?.getD 0) = true) ∧
    ((⟨48, 16⟩ : Params).Legal ∧
      (∀ k d : Nat, k < 146 → k < 2 * ((onPulses (p2.take 145)).pulsesIn.length / 2) →
        (onPulses (p2.take 145)).pulsesIn[k]? = some d →
        matchDur 48 d ((penc offFrame)[k]?.getD 0) = true) ∧
      (onPulses (p2.take 145)).pulsesIn.length ≤ 145) :=
  ⟨⟨by decide, matches_of_check (by decide), by decide⟩, ⟨by decide, matches_of_check (by decide)⟩,
    by decide, matches_of_check (by decide), by decide⟩

/-- No pair at all (D-9, D-11), and the last pair with a lone bad mark (D-14). -/
theorem witness_PdecIsTruncatedWhenThePairsRunOut :
    HeaderInWindow 8000 4000 ∧
      ((onPulses [8000, 4000]).pulsesIn.length = 2 + 2 * 0 ∧
        (onPulses [8000, 4000, 600]).pulsesIn.length = 3 + 2 * 0) ∧
      (((p2.take 145).set 144 9999)[0]? = some 8000 ∧ ((p2.take 145).set 144 9999)[1]? = some 4000 ∧
        (∀ k : Nat, k < 71 → ∃ (x y : Nat) (bit : Bool),
          ((p2.take 145).set 144 9999)[2 + 2 * k]? = some x ∧
          ((p2.take 145).set 144 9999)[3 + 2 * k]? = some y ∧ PairReads bit x y) ∧
        ((p2.take 145).set 144 9999).length = 3 + 2 * 71) := by
  refine ⟨by unfold HeaderInWindow; decide, ⟨rfl, rfl⟩, rfl, rfl, fun k hk => ?_, rfl⟩
  have h : (List.range 71).all
      (fun n => pairCheck ((p2.take 145).set 144 9999) n (offFrame.wireBit n)) = true := by decide
  obtain ⟨x, y, hx, hy, hr⟩ := pairCheck_reads (List.all_eq_true.1 h k (List.mem_range.2 hk))
  exact ⟨x, y, _, hx, hy, hr⟩

/-- 146 elements (D-3), 147, and more (D-4). -/
theorem witness_PdecIgnoresTheElementsAfterTheLastBit :
    146 ≤ (onPulses (p2.take 146)).pulsesIn.length ∧
      146 ≤ (onPulses (p2 ++ [0, 99999, 7, 600, 550])).pulsesIn.length ∧
      (onPulses (p2.take 146)).pulsesIn
        = (onPulses (p2 ++ [0, 99999, 7, 600, 550])).pulsesIn.take 146 := by decide

theorem witness_PdecInvertsPenc :
    Config.tolPct ≤ 48 ∧
      ∃ (t : State) (P : PulseSequence), exec .penc (onFrame coolFrame) = .next t ∧
        t.out = some (.ok (.pulses P)) ∧ (onPulses p1).pulsesIn = P :=
  ⟨by decide, _, _, rfl, rfl, by decide⟩

/-- Both branches of FENC. -/
theorem witness_SendIsPencAfterFenc :
    resultOf (exec .fenc (onCommand (.typed ⟨.heat, .none, .low, 72⟩))) =
        some (.err .unsupportedMode) ∧
      resultOf (exec .fenc (onCommand (.typed cool79))) = some (.ok (.frame coolFrame)) := by decide

/-- One command for each mode that has a frame, COOL at 62 and at 86. -/
theorem witness_SendEmitsTheLayoutOfItsCommand :
    ∀ p ∈ ([(⟨.off, .sleep, .high, 0⟩, offFrame), (⟨.cool, .none, .high, 79⟩, coolFrame),
        (⟨.cool, .none, .low, 62⟩, ⟨0x19, 0x80, 0x11, 0, 0x3E, 0, 0, 0, 0xCF⟩),
        (⟨.cool, .sleep, .high, 86⟩, ⟨0x19, 0x81, 0x36, 0, 0x56, 0, 0, 0, 0x0D⟩),
        (⟨.auto, .sleep, .high, 72⟩, ⟨0x19, 0x81, 0x30, 0, 0x48, 0, 0, 0, 0xF9⟩),
        (⟨.dry, .eco, .med, 72⟩, ⟨0x19, 0x80, 0x12, 0, 0x4F, 0, 0, 0, 0xE1⟩),
        (⟨.fanOnly, .none, .high, 72⟩, ⟨0x19, 0x80, 0x33, 0, 0x4F, 0, 0, 0, 0x02⟩)] :
        List (SemanticCommand × Frame)),
      (onCommand (.typed p.1)).cmdIn.command = some p.1 ∧ EncodesTo p.1 p.2 := by
  unfold EncodesTo
  simp only [List.forall_mem_cons]
  exact ⟨⟨rfl, by decide⟩, ⟨rfl, by decide⟩, ⟨rfl, by decide⟩, ⟨rfl, by decide⟩, ⟨rfl, by decide⟩,
    ⟨rfl, by decide⟩, ⟨rfl, by decide⟩, by simp⟩

/-- Both branches of PDEC (V-9, V-7). -/
theorem witness_RecvIsFdecAfterPdec :
    resultOf (exec .pdec (onPulses (p2.take 100))) = some (.err .truncatedFrame) ∧
      resultOf (exec .pdec (onPulses p2)) = some (.ok (.frame offFrame)) := by decide

/-- P-2 and P-1; the other forms are in `witness_DecodesTo_of_each_form`. -/
theorem witness_RecvDeliversTheCommandTheSpacesSpell :
    (ChecksPass offFrame ∧ DecodesTo offFrame ⟨.off, .none, some .low, none⟩ ∧
      (onPulses p2High).pulsesIn[0]? = some 10000 ∧ (onPulses p2High).pulsesIn[1]? = some 5000 ∧
      HeaderInWindow 10000 5000 ∧
      ∀ n : Nat, n < 72 → ∃ a b : Nat, (onPulses p2High).pulsesIn[2 + 2 * n]? = some a ∧
        (onPulses p2High).pulsesIn[3 + 2 * n]? = some b ∧ PairReads (offFrame.wireBit n) a b) ∧
    (ChecksPass coolFrame ∧ DecodesTo coolFrame ⟨.cool, .none, some .high, some 79⟩ ∧
      (onPulses p1).pulsesIn[0]? = some 8000 ∧ (onPulses p1).pulsesIn[1]? = some 4000 ∧
      HeaderInWindow 8000 4000 ∧
      ∀ n : Nat, n < 72 → ∃ a b : Nat, (onPulses p1).pulsesIn[2 + 2 * n]? = some a ∧
        (onPulses p1).pulsesIn[3 + 2 * n]? = some b ∧ PairReads (coolFrame.wireBit n) a b) :=
  ⟨⟨⟨rfl, rfl⟩, by unfold DecodesTo; decide, rfl, rfl, by unfold HeaderInWindow; decide,
      spells_of_check (by decide)⟩,
    ⟨rfl, rfl⟩, by unfold DecodesTo; decide, rfl, rfl, by unfold HeaderInWindow; decide,
      spells_of_check (by decide)⟩

/-- V-14: a canonical command; and a sequence RECV accepts, with the command to send again. -/
theorem witness_EndToEndRoundTrip :
    ((onCommand (.typed ⟨.cool, .sleep, .med, 68⟩)).cmdIn.command = some ⟨.cool, .sleep, .med, 68⟩ ∧
      (⟨.cool, .sleep, .med, 68⟩ : SemanticCommand).Canonical) ∧
    (∃ t : State, exec .recv (onPulses p1) = .next t ∧
      t.out = some (.ok (.command ⟨.cool, .none, some .high, some 79⟩)) ∧
      (onCommand (.typed cool79)).cmdIn.command = some cool79) :=
  ⟨by decide, _, rfl, by decide, rfl⟩

/-- The first and the last bit of the checksum byte, both directions (X-2: elements 131, 133, 145). -/
theorem witness_FlippedChecksumBitIsCaughtByRecv :
    ∃ t : State, exec .fenc (onCommand (.typed ⟨.off, .none, .low, 0⟩)) = .next t ∧
      t.out = some (.ok (.frame offFrame)) ∧
      (penc offFrame)[3 + 2 * 64]? = some 550 ∧ (penc offFrame)[3 + 2 * 65]? = some 1600 ∧
      (penc offFrame)[3 + 2 * 71]? = some 550 ∧
      (onPulses (p2.set 145 1600)).pulsesIn = (penc offFrame).set (3 + 2 * 71) 1600 :=
  ⟨_, rfl, rfl, by decide, by decide, by decide, by decide⟩

theorem witness_FrameOffDeliversOff :
    (⟨0x19, 0x00, 0x34, 0, 0x00, 0, 0, 0, 0x34⟩ : Frame) =
      ⟨0x19, 0x00, 0x34, 0, 0x00, 0, 0, 0,
        BitVec.ofNat 8 (((0x34 : Byte).toNat + (0x00 : Byte).toNat) % 256)⟩ := by decide

/-- Each of the six forms, under the power bytes 0x80 and 0x01 and the fan nibbles 15 and 0; the frames
are those of `oneOfEachForm` for two of them. -/
theorem witness_FrameFormsDeliverTheirCommands :
    (∀ x ∈ ([⟨0x80, 0xF, 0, 0x4F, 0, 0, 0⟩, ⟨0x01, 0x0, 0, 0xFF, 0, 0, 0⟩] : List OnFields),
      ∀ i ∈ [Instr.frameAuto x, .frameCool x, .frameDry x, .frameFanOnly x, .frameEco x, .frameSleep x],
        i.wellFormed = true) ∧
    (⟨0x19, 0x80, 0xF2, 0, 0x4F, 0, 0, 0, 0xC1⟩ : Frame) =
      ⟨0x19, 0x80, BitVec.ofNat 8 (16 * (0xF : Nibble).toNat + 2), 0, 0x4F, 0, 0, 0,
        BitVec.ofNat 8 (((0x80 : Byte).toNat + (16 * (0xF : Nibble).toNat + 2)
          + (0x4F : Byte).toNat) % 256)⟩ ∧
    (⟨0x19, 0x01, 0x11, 0, 0xFF, 0, 0, 0, 0x11⟩ : Frame) =
      ⟨0x19, 0x01, BitVec.ofNat 8 (16 * (0x1 : Nibble).toNat + 1), 0, 0xFF, 0, 0, 0,
        BitVec.ofNat 8 (((0x01 : Byte).toNat + (16 * (0x1 : Nibble).toNat + 1)
          + (0xFF : Byte).toNat) % 256)⟩ := by decide

theorem witness_InstructionsChangeOnlyTheirOwnRegisters :
    ∃ t u : State, exec .fenc (onCommand (.typed ⟨.heat, .none, .low, 72⟩)) = .next t ∧
      t.out = some (.err .unsupportedMode) ∧
      exec (.frameCool ⟨0x80, 3, 0, 0x4F, 0, 0, 0⟩) State.reset = .next u ∧
      encodeWord (.frameCool ⟨0x80, 3, 0, 0x4F, 0, 0, 0⟩) = .frame72 coolFrame :=
  ⟨_, _, rfl, rfl, rfl, rfl⟩

/-- A result, a failure, and nothing presented. -/
theorem witness_OutputsSayTheResult :
    (onCommand (.word 0)).out = none ∧
      ∃ t u : State, exec .fdec (onFrame coolFrame) = .next t ∧
        t.out = some (.ok (.command ⟨.cool, .none, some .high, some 79⟩)) ∧
        exec .pdec (onPulses [1]) = .next u ∧ u.out = some (.err .truncatedFrame) ∧ u.errCode = 8 :=
  ⟨rfl, _, _, rfl, rfl, rfl, rfl, rfl⟩

/-- Program 3, line 1: `err` = 4, from RECV. -/
theorem witness_EachInstructionRaisesItsOwnFailures :
    Failure.checksumMismatch ∈ failuresOf .recv ∧
      ∃ t : State, exec .recv (onPulses (p2.set 145 1600)) = .next t ∧ t.status = some .err ∧
        t.errCode = 4 := ⟨by decide, _, rfl, by decide, by decide⟩

theorem witness_BuildsDifferOnlyInTheScan :
    (waiting (.op3 3) (.word 0) p2).requests = [⟨.op3 3, .word 0, coolFrame, p2⟩] ∧
      decodeWord (.op3 3) = .ok .pdec ∧ Instr.fdec ≠ .pdec ∧ Instr.fdec ≠ .recv := by decide

/-- P-2 scanned in the build at 0, its low edges refused there, and a canonical command in the build
at 48. -/
theorem witness_EveryBuildScansAtItsOwnTolerance :
    pdec 0 (onPulses p2).pulsesIn = .ok offFrame ∧
      pdec 0 (onPulses p2Low).pulsesIn = .error .headerMismatch ∧ (⟨48, 32⟩ : Params).Legal ∧
      (onCommand (.typed ⟨.cool, .eco, .med, 62⟩)).cmdIn.command = some ⟨.cool, .eco, .med, 62⟩ ∧
      (⟨.cool, .eco, .med, 62⟩ : SemanticCommand).Canonical := by decide

/-- At 48 per cent the zero-space window is 286 to 814 (`95_test_vectors.md` 2.1): a space of 814 is read
there, and is a mismatch at 25. -/
theorem test_build_at_48 :
    resultOf (execIn ⟨48, 32⟩ .pdec (onPulses (p2.set 65 814))) = some (.ok (.frame offFrame)) ∧
      resultOf (execIn ⟨48, 32⟩ .pdec (onPulses (p2.set 65 815))) =
        some (.err .bitPatternMismatch) ∧
      resultOf (exec .pdec (onPulses (p2.set 65 814))) = some (.err .bitPatternMismatch) := by decide

end Sys2Proof.Tests
end

section
/-! SUPPORT. Which failures an instruction can end in (O58). For each instruction, when it presents
a failure is said once, as an `↔` that both halves of the obligation use. -/

namespace Sys2Proof.Machine

/-! ## The outputs as functions of the result presented -/

/-- The port code of a failure is its number in the table of `60_exceptions.md` R215. -/
theorem code_eq_failureNumber (k : Failure) : k.code = failureNumber k := by
  cases k <;> rfl

theorem failureNumber_ne_zero (k : Failure) : failureNumber k ≠ 0 := by
  cases k <;> decide

theorem err_of_out_err {t : State} {k : Failure} (h : t.out = some (.err k)) : t.err = some k := by
  simp [State.err, h]

theorem errCode_of_out_err {t : State} {k : Failure} (h : t.out = some (.err k)) :
    t.errCode = failureNumber k := by
  simp [State.errCode, err_of_out_err h, code_eq_failureNumber]

theorem status_eq_err_iff (t : State) :
    t.status = some .err ↔ ∃ k : Failure, t.out = some (.err k) := by
  rcases h : t.out with _ | (v | k) <;> simp [State.status, h]

/-- "Code 0 is no failure" (`60_exceptions.md` R224). -/
theorem errCode_ne_zero_iff (t : State) :
    t.errCode ≠ 0 ↔ ∃ k : Failure, t.out = some (.err k) := by
  rcases h : t.out with _ | (v | k)
  · simp [State.errCode, State.err, h]
  · simp [State.errCode, State.err, h]
  · simp [errCode_of_out_err h, failureNumber_ne_zero]

/-! ## When an instruction presents a failure -/

/-- FENC fails on a command where the function FENC does; a refused request is no failure. -/
theorem exec_fenc_err_iff {s t : State} (h : exec .fenc s = .next t) (k : Failure) :
    t.out = some (.err k) ↔ ∃ c, s.cmdIn.command = some c ∧ fenc c = .error k := by
  cases hc : s.cmdIn.command with
  | none =>
    simp only [exec, execFenc, hc, Host.Outcome.next.injEq] at h
    simp [← h]
  | some c =>
    simp only [exec, execFenc, hc, Host.Outcome.next.injEq] at h
    cases hf : fenc c <;> simp [← h, fencOn, hf]

/-- SEND fails where its first stage FENC does (`43_driver.md` R200). -/
theorem exec_send_err_iff {s t : State} (h : exec .send s = .next t) (k : Failure) :
    t.out = some (.err k) ↔ ∃ c, s.cmdIn.command = some c ∧ fenc c = .error k := by
  cases hc : s.cmdIn.command with
  | none =>
    simp only [exec, execSend, hc, Host.Outcome.next.injEq] at h
    simp [← h]
  | some c =>
    simp only [exec, execSend, hc, Host.Outcome.next.injEq] at h
    cases hf : fenc c <;> simp [← h, sendOn, pencBuffer, hf]

theorem fdecBuffer_err_iff (s : State) (k : Failure) :
    (fdecBuffer s).out = some (.err k) ↔ fdec s.F = .error k := by
  cases h : fdec s.F <;> simp [fdecBuffer, h]

theorem exec_fdec_err_iff {s t : State} (h : exec .fdec s = .next t) (k : Failure) :
    t.out = some (.err k) ↔ fdec s.frameIn = .error k := by
  cases h
  rw [fdecBuffer_err_iff, loadFrame_F]

/-- PDEC fails where its scan does (`42_pulse_decode.md` R184). -/
theorem exec_pdec_err_iff {s t : State} (h : exec .pdec s = .next t) (k : Failure) :
    t.out = some (.err k) ↔ (scanAll Config.tolPct s.pulsesIn).failure = some k := by
  cases h
  show (pdecEnd (scanAll Config.tolPct s.pulsesIn) s).out = _ ↔ _
  cases hf : (scanAll Config.tolPct s.pulsesIn).failure <;> simp [pdecEnd, hf]

/-- RECV fails where its scan does, or where FDEC does on the scanned frame
(`43_driver.md` R202). -/
theorem exec_recv_err_iff {s t : State} (h : exec .recv s = .next t) (k : Failure) :
    t.out = some (.err k) ↔ (scanAll Config.tolPct s.pulsesIn).failure = some k ∨
      (scanAll Config.tolPct s.pulsesIn).failure = none ∧
        fdec (scanAll Config.tolPct s.pulsesIn).F = .error k := by
  cases h
  show (recvEnd (scanAll Config.tolPct s.pulsesIn) s).out = _ ↔ _
  cases hf : (scanAll Config.tolPct s.pulsesIn).failure <;>
    simp [recvEnd, hf, fdecBuffer_err_iff]

theorem exec_penc_no_err {s t : State} (h : exec .penc s = .next t) (k : Failure) :
    t.out ≠ some (.err k) := by
  cases h
  simp [pencBuffer]

theorem deliverDecoded_no_err {f : Frame} {d : DecodedCommand} {s t : State}
    (h : deliverDecoded f d s = .next t) (k : Failure) : t.out ≠ some (.err k) := by
  cases h
  simp

/-! ## Only the failures of the table -/

/-- FENC fails on HEAT and on COOL outside the range, and on no other command. -/
theorem mem_failuresOf_of_fenc_error {c : SemanticCommand} {k : Failure}
    (h : fenc c = .error k) : k ∈ failuresOf .fenc := by
  cases hm : c.mode with
  | off => simp [fenc_off hm] at h
  | auto => simp [fenc_auto hm] at h
  | fanOnly => simp [fenc_fanOnly hm] at h
  | dry => simp [fenc_dry hm] at h
  | heat =>
    rw [fenc_heat hm] at h
    cases h
    decide
  | cool =>
    by_cases ht : 62 ≤ c.temperature ∧ c.temperature ≤ 86
    · simp [fenc_cool_ok hm ht.1 ht.2] at h
    · rw [fenc_cool_error hm (by omega)] at h
      cases h
      decide

theorem eq_unknownModeNibble_of_decodeMode_error {F : Frame} {k : Failure}
    (h : decodeMode F = .error k) : k = .unknownModeNibble := by
  unfold decodeMode at h
  split_ifs at h
  cases h
  rfl

theorem mem_failuresOf_of_fdec_error {F : Frame} {k : Failure} (h : fdec F = .error k) :
    k ∈ failuresOf .fdec := by
  unfold fdec at h
  split_ifs at h
  · cases h
    decide
  · cases h
    decide
  · rw [eq_unknownModeNibble_of_decodeMode_error h]
    decide

/-- A failure the scan records is one of PDEC's. -/
def Scan.FailsAsPdec (sc : Scan) : Prop := ∀ k : Failure, sc.failure = some k → k ∈ failuresOf .pdec

theorem scanFail_failsAsPdec {k : Failure} (hk : k ∈ failuresOf .pdec) (sc : Scan) :
    (scanFail k sc).FailsAsPdec := by
  rintro _ ⟨⟩
  exact hk

/-- Reading a bit records no failure. -/
@[simp] theorem scanBit_failure (b : Bool) (sc : Scan) : (scanBit b sc).failure = sc.failure := by
  unfold scanBit scanAdvance
  split_ifs <;> rfl

theorem scanHeader_failsAsPdec {sc : Scan} (h : sc.FailsAsPdec) (tol m sp : Nat) :
    (scanHeader tol m sp sc).FailsAsPdec := by
  unfold scanHeader
  split_ifs
  · exact h
  · exact scanFail_failsAsPdec (by decide) sc

theorem scanPair_failsAsPdec {sc : Scan} (h : sc.FailsAsPdec) (tol m sp : Nat) :
    (scanPair tol m sp sc).FailsAsPdec := by
  unfold scanPair
  split_ifs
  · exact scanFail_failsAsPdec (by decide) sc
  · simpa [Scan.FailsAsPdec] using h
  · simpa [Scan.FailsAsPdec] using h
  · exact scanFail_failsAsPdec (by decide) sc

theorem scanStep_failsAsPdec {sc : Scan} (h : sc.FailsAsPdec) (tol : Nat) (P : PulseSequence) :
    (scanStep tol P sc).FailsAsPdec := by
  have hpos : ({ sc with pos := sc.pos + 2 } : Scan).FailsAsPdec := h
  obtain ⟨-, e⟩ | ⟨-, -, e⟩ | ⟨m, sp, -, -, ⟨-, e⟩ | ⟨-, e⟩⟩ := scanStep_cases tol P sc
  · rw [e]
    exact h
  · rw [e]
    exact scanFail_failsAsPdec (by decide) sc
  · rw [e]
    exact scanHeader_failsAsPdec hpos tol m sp
  · rw [e]
    exact scanPair_failsAsPdec hpos tol m sp

theorem scanRun_failsAsPdec (tol : Nat) (P : PulseSequence) (n : Nat) {sc : Scan}
    (h : sc.FailsAsPdec) : (scanRun tol P n sc).FailsAsPdec := by
  induction n generalizing sc with
  | zero => exact h
  | succ n ih => exact ih (scanStep_failsAsPdec h tol P)

theorem scanAll_failsAsPdec (tol : Nat) (P : PulseSequence) : (scanAll tol P).FailsAsPdec :=
  scanRun_failsAsPdec tol P _ (by simp [Scan.FailsAsPdec, scanStart])

/-- RECV's failures are those of its two stages (`43_driver.md` R202). -/
theorem failuresOf_recv : failuresOf .recv = failuresOf .pdec ++ failuresOf .fdec := rfl

/-- What an instruction fails with is one of its own failures (`00_scope.md` R3). -/
theorem mem_failuresOf_of_exec_err {i : Instr} {s t : State} {k : Failure}
    (h : exec i s = .next t) (ho : t.out = some (.err k)) : k ∈ failuresOf i := by
  cases i with
  | fenc =>
    obtain ⟨c, -, hf⟩ := (exec_fenc_err_iff h k).1 ho
    exact mem_failuresOf_of_fenc_error hf
  | send =>
    obtain ⟨c, -, hf⟩ := (exec_send_err_iff h k).1 ho
    exact mem_failuresOf_of_fenc_error hf
  | fdec => exact mem_failuresOf_of_fdec_error ((exec_fdec_err_iff h k).1 ho)
  | pdec => exact scanAll_failsAsPdec _ _ k ((exec_pdec_err_iff h k).1 ho)
  | recv =>
    rw [failuresOf_recv, List.mem_append]
    obtain hs | ⟨-, hf⟩ := (exec_recv_err_iff h k).1 ho
    · exact .inl (scanAll_failsAsPdec _ _ k hs)
    · exact .inr (mem_failuresOf_of_fdec_error hf)
  | penc => exact absurd ho (exec_penc_no_err h k)
  | frameOff | frameAuto | frameCool | frameDry | frameFanOnly | frameEco | frameSleep =>
    exact absurd ho (deliverDecoded_no_err h k)

/-! ## Each failure of the table -/

/-- COOL at 87 degrees, and HEAT. -/
theorem exists_fenc_error {k : Failure} (hk : k ∈ failuresOf .fenc) :
    ∃ c : SemanticCommand, fenc c = .error k := by
  simp only [failuresOf, List.mem_cons, List.not_mem_nil, or_false] at hk
  obtain rfl | rfl := hk
  · exact ⟨⟨.cool, .none, .low, 87⟩, fenc_cool_error rfl (.inr (by decide))⟩
  · exact ⟨⟨.heat, .none, .low, 72⟩, fenc_heat rfl⟩

set_option maxRecDepth 20000 in
/-- A frame with device id 0x18, one whose checksum is off by one, one with mode nibble 0x4. The
scan reads each back from its layout, so RECV's second stage meets it as FDEC does. -/
theorem exists_frame_refused {k : Failure} (hk : k ∈ failuresOf .fdec) :
    ∃ F : Frame, fdec F = .error k ∧ (scanAll Config.tolPct (penc F)).failure = none ∧
      (scanAll Config.tolPct (penc F)).F = F := by
  simp only [failuresOf, List.mem_cons, List.not_mem_nil, or_false] at hk
  obtain rfl | rfl | rfl := hk
  · exact ⟨⟨0x18, 0x80, 0x31, 0, 0, 0, 0, 0, 0xB1⟩, by decide⟩
  · exact ⟨⟨0x19, 0x80, 0x31, 0, 0, 0, 0, 0, 0xB2⟩, by decide⟩
  · exact ⟨⟨0x19, 0x80, 0x34, 0, 0, 0, 0, 0, 0xB4⟩, by decide⟩

/-- A header of zero durations, a first bit pair of zero durations, and no pulses at all. -/
theorem exists_scan_failure {k : Failure} (hk : k ∈ failuresOf .pdec) :
    ∃ P : PulseSequence, (scanAll Config.tolPct P).failure = some k := by
  simp only [failuresOf, List.mem_cons, List.not_mem_nil, or_false] at hk
  obtain rfl | rfl | rfl := hk
  · exact ⟨[0, 0], by decide⟩
  · exact ⟨[8000, 4000, 0, 0], by decide⟩
  · exact ⟨[], by decide⟩

/-- RECV fails with its scan's failures, and with FDEC's on the layout of a refused frame. -/
theorem exists_recv_failure {k : Failure} (hk : k ∈ failuresOf .recv) :
    ∃ P : PulseSequence, (scanAll Config.tolPct P).failure = some k ∨
      (scanAll Config.tolPct P).failure = none ∧ fdec (scanAll Config.tolPct P).F = .error k := by
  rw [failuresOf_recv, List.mem_append] at hk
  obtain hs | hf := hk
  · obtain ⟨P, hP⟩ := exists_scan_failure hs
    exact ⟨P, .inl hP⟩
  · obtain ⟨F, herr, hnone, hF⟩ := exists_frame_refused hf
    exact ⟨penc F, .inr ⟨hnone, by rw [hF]; exact herr⟩⟩

/-- Each failure of an instruction is presented after it from some state. -/
theorem exists_exec_err {i : Instr} {k : Failure} (hk : k ∈ failuresOf i) :
    ∃ s t : State, exec i s = .next t ∧ t.out = some (.err k) := by
  cases i with
  | fenc =>
    obtain ⟨c, hc⟩ := exists_fenc_error hk
    obtain ⟨t, ht⟩ := exec_next .fenc { State.reset with cmdIn := .typed c }
    exact ⟨_, t, ht, (exec_fenc_err_iff ht k).2 ⟨c, rfl, hc⟩⟩
  | send =>
    obtain ⟨c, hc⟩ := exists_fenc_error hk
    obtain ⟨t, ht⟩ := exec_next .send { State.reset with cmdIn := .typed c }
    exact ⟨_, t, ht, (exec_send_err_iff ht k).2 ⟨c, rfl, hc⟩⟩
  | fdec =>
    obtain ⟨F, hF, -⟩ := exists_frame_refused hk
    obtain ⟨t, ht⟩ := exec_next .fdec { State.reset with frameIn := F }
    exact ⟨_, t, ht, (exec_fdec_err_iff ht k).2 hF⟩
  | pdec =>
    obtain ⟨P, hP⟩ := exists_scan_failure hk
    obtain ⟨t, ht⟩ := exec_next .pdec { State.reset with pulsesIn := P }
    exact ⟨_, t, ht, (exec_pdec_err_iff ht k).2 hP⟩
  | recv =>
    obtain ⟨P, hP⟩ := exists_recv_failure hk
    obtain ⟨t, ht⟩ := exec_next .recv { State.reset with pulsesIn := P }
    exact ⟨_, t, ht, (exec_recv_err_iff ht k).2 hP⟩
  | penc | frameOff | frameAuto | frameCool | frameDry | frameFanOnly | frameEco | frameSleep =>
    cases hk

end Sys2Proof.Machine

open Sys2Proof Sys2Proof.Machine

/-- Settles O58: `mem_failuresOf_of_exec_err` gives the first half, `exists_exec_err` the second. -/
theorem eachInstructionRaisesItsOwnFailures : Obligations.EachInstructionRaisesItsOwnFailures := by
  refine ⟨fun i s t h => ⟨?_, fun hcode => ?_⟩, fun i k hk => ?_⟩
  · rw [status_eq_err_iff, errCode_ne_zero_iff]
  · obtain ⟨k, ho⟩ := (errCode_ne_zero_iff t).1 hcode
    exact ⟨k, mem_failuresOf_of_exec_err h ho, err_of_out_err ho, errCode_of_out_err ho⟩
  · obtain ⟨s, t, h, ho⟩ := exists_exec_err hk
    exact ⟨s, t, h, (status_eq_err_iff t).2 ⟨k, ho⟩, errCode_of_out_err ho⟩
end

section
/-! SUPPORT. The state and its outputs (O1, O2, O57): what stands after reset, and what the host
reads. -/

open Sys2Proof Sys2Proof.Machine

/-- Settles O1: every value is the one `State.reset` gives. -/
theorem resetIsIdleWithTheScanAtItsStart : Obligations.ResetIsIdleWithTheScanAtItsStart :=
  ⟨rfl, rfl, rfl, rfl, rfl, rfl, rfl, rfl⟩

/-- Settles O2: the scan expects its header at position 0, the emission is at its start, and nothing
is presented. -/
theorem resetMeetsTheInvariant : Obligations.ResetMeetsTheInvariant := by
  have hscan : ScanCoherent State.reset := ⟨rfl, rfl, rfl⟩
  have hemission : EmissionCoherent State.reset := .inl ⟨rfl, rfl⟩
  exact ⟨rfl, hscan, hemission, trivial⟩

/-- Settles O57, by the three results that can be presented. -/
theorem outputsSayTheResult : Obligations.OutputsSayTheResult := by
  refine fun t => ⟨fun v h => ?_, fun k h => ?_, fun h => ?_⟩
  · simp [State.status, State.result, State.err, State.errCode, h]
  · have hresult : t.result = none := by simp [State.result, h]
    exact ⟨(status_eq_err_iff t).2 ⟨k, h⟩, err_of_out_err h, hresult, errCode_of_out_err h⟩
  · simp [State.status, State.result, State.err, State.errCode, h]

end

section
/-! SUPPORT. The frame of the instructions (O55): for each instruction, the registers it has written
when it ends, said once. -/

namespace Sys2Proof.Machine

/-! ## How an operation ends -/

/-- `t` is `s` with an operation ended on it: some result or none is presented and the block
is idle. -/
def EndsFrom (s t : State) : Prop := ∃ o : Option Response, t = { s with out := o, busy := false }

theorem endsFrom_deliver (v : Value) (s : State) : EndsFrom s (deliver v s) := ⟨_, rfl⟩

theorem endsFrom_raiseFailure (k : Failure) (s : State) : EndsFrom s (raiseFailure k s) := ⟨_, rfl⟩

theorem endsFrom_refuseRequest (s : State) : EndsFrom s (refuseRequest s) := ⟨_, rfl⟩

/-- FDEC's checks write no register. -/
theorem endsFrom_fdecBuffer (s : State) : EndsFrom s (fdecBuffer s) := by
  unfold fdecBuffer
  split
  · exact endsFrom_deliver _ s
  · exact endsFrom_raiseFailure _ s

/-- PENC on the buffer writes the emission registers and presents what it emitted
(`10_state.md` R25). -/
theorem pencBuffer_eq (s : State) :
    pencBuffer s = { s with
      emitPos := 147
      emitted := (List.range 147).map (pulseAt s.F)
      out := some (.ok (.pulses ((List.range 147).map (pulseAt s.F))))
      busy := false } := by
  rw [pencBuffer, runEmission_eq]
  rfl

theorem endsFrom_pdecEnd (sc : Scan) (s : State) : EndsFrom (writeScan sc s) (pdecEnd sc s) := by
  unfold pdecEnd
  split
  · exact endsFrom_deliver _ _
  · exact endsFrom_raiseFailure _ _

theorem endsFrom_recvEnd (sc : Scan) (s : State) : EndsFrom (writeScan sc s) (recvEnd sc s) := by
  unfold recvEnd
  split
  · exact endsFrom_fdecBuffer _
  · exact endsFrom_raiseFailure _ _

/-! ## What each instruction has written when it ends -/

/-- FENC is refused or fails with no register written, or loads the frame it delivers
(`10_state.md` R23). -/
theorem exec_fenc_cases {s t : State} (h : exec .fenc s = .next t) :
    EndsFrom s t ∨ ∃ f : Frame, t = deliver (.frame f) (loadFrame f s) := by
  simp only [exec, execFenc, fencOn] at h
  split at h
  · split at h <;> cases h
    · exact .inr ⟨_, rfl⟩
    · exact .inl (endsFrom_raiseFailure _ s)
  · cases h
    exact .inl (endsFrom_refuseRequest s)

/-- SEND is refused or fails with no register written, or ends as PENC on the frame it built
(`43_driver.md` R200). -/
theorem exec_send_cases {s t : State} (h : exec .send s = .next t) :
    EndsFrom s t ∨ ∃ f : Frame, t = pencBuffer (loadFrame f s) := by
  simp only [exec, execSend, sendOn] at h
  split at h
  · split at h <;> cases h
    · exact .inr ⟨_, rfl⟩
    · exact .inl (endsFrom_raiseFailure _ s)
  · cases h
    exact .inl (endsFrom_refuseRequest s)

theorem endsFrom_of_exec_fdec {s t : State} (h : exec .fdec s = .next t) :
    EndsFrom (loadFrame s.frameIn s) t := by
  cases h
  exact endsFrom_fdecBuffer _

theorem endsFrom_of_exec_pdec {s t : State} (h : exec .pdec s = .next t) :
    EndsFrom (writeScan (scanAll Config.tolPct s.pulsesIn) s) t := by
  cases h
  exact endsFrom_pdecEnd _ s

theorem endsFrom_of_exec_recv {s t : State} (h : exec .recv s = .next t) :
    EndsFrom (writeScan (scanAll Config.tolPct s.pulsesIn) s) t := by
  cases h
  exact endsFrom_recvEnd _ s

/-- A frame form makes its frame the frame operand and the buffer, and delivers (log 4). -/
theorem exec_frameForm_eq {i : Instr} {f : Frame} {s t : State} (hw : encodeWord i = .frame72 f)
    (h : exec i s = .next t) :
    ∃ d : DecodedCommand, t = deliver (.command d) (loadFrame f (presentFrame f s)) := by
  cases i with
  | fenc | fdec | penc | pdec | send | recv => cases hw
  | frameOff | frameAuto | frameCool | frameDry | frameFanOnly | frameEco | frameSleep =>
    cases hw
    cases h
    exact ⟨_, rfl⟩

end Sys2Proof.Machine

open Sys2Proof Sys2Proof.Machine

/-- Settles O55: each clause is read off the registers the instruction has written when it ends. -/
theorem instructionsChangeOnlyTheirOwnRegisters :
    Obligations.InstructionsChangeOnlyTheirOwnRegisters := by
  intro i s t h
  cases i with
  | fenc =>
    obtain ⟨o, rfl⟩ | ⟨f, rfl⟩ := exec_fenc_cases h <;>
      simp [encodeWord, SameScan, SameEmission]
  | send =>
    obtain ⟨o, rfl⟩ | ⟨f, rfl⟩ := exec_send_cases h <;>
      simp [encodeWord, SameScan, pencBuffer_eq]
  | fdec =>
    obtain ⟨o, rfl⟩ := endsFrom_of_exec_fdec h
    simp [encodeWord, SameScan, SameEmission]
  | penc =>
    cases h
    simp [encodeWord, SameScan, pencBuffer_eq]
  | pdec =>
    obtain ⟨o, rfl⟩ := endsFrom_of_exec_pdec h
    simp [encodeWord, SameEmission]
  | recv =>
    obtain ⟨o, rfl⟩ := endsFrom_of_exec_recv h
    simp [encodeWord, SameEmission]
  | frameOff | frameAuto | frameCool | frameDry | frameFanOnly | frameEco | frameSleep =>
    obtain ⟨d, rfl⟩ := exec_frameForm_eq rfl h
    simp [encodeWord, SameScan, SameEmission]

end

section
/-! SUPPORT. What the result of a request depends on (O8): two states with the same operands on
their ports, whatever the other registers hold, present the same result after the same instruction. -/

namespace Sys2Proof.Machine

/-! ## The result presented, from two states -/

theorem fencOn_out_congr (c : SemanticCommand) (s u : State) :
    (fencOn c s).out = (fencOn c u).out := by
  cases hf : fenc c <;> simp [fencOn, hf]

theorem fdecBuffer_out_congr {s u : State} (h : s.F = u.F) :
    (fdecBuffer s).out = (fdecBuffer u).out := by
  cases hf : fdec u.F <;> simp [fdecBuffer, h, hf]

theorem pencBuffer_out_congr {s u : State} (h : s.F = u.F) :
    (pencBuffer s).out = (pencBuffer u).out := by
  simp [pencBuffer_eq, h]

theorem sendOn_out_congr (c : SemanticCommand) (s u : State) :
    (sendOn c s).out = (sendOn c u).out := by
  cases hf : fenc c with
  | ok f =>
    simp only [sendOn, hf]
    exact pencBuffer_out_congr rfl
  | error k => simp [sendOn, hf]

theorem pdecEnd_out_congr (sc : Scan) (s u : State) : (pdecEnd sc s).out = (pdecEnd sc u).out := by
  cases hf : sc.failure <;> simp [pdecEnd, hf]

theorem recvEnd_out_congr (sc : Scan) (s u : State) : (recvEnd sc s).out = (recvEnd sc u).out := by
  cases hf : sc.failure with
  | none =>
    simp only [recvEnd, hf]
    exact fdecBuffer_out_congr rfl
  | some k => simp [recvEnd, hf]

theorem rejectRequest_out_congr (e : Reject) (w : PortWord) (s u : State) :
    (rejectRequest e w s).out = (rejectRequest e w u).out := by
  cases e <;> cases w <;> rfl

/-- The result of an instruction is a function of the operands on the ports: no register an earlier
operation left is read (`20_memory.md` R62 item 1). -/
theorem exec_out_congr {i : Instr} {s t u v : State} (hs : exec i s = .next t)
    (hu : exec i u = .next v) (hcmd : s.cmdIn = u.cmdIn) (hframe : s.frameIn = u.frameIn)
    (hpulses : s.pulsesIn = u.pulsesIn) : t.out = v.out := by
  cases i with
  | fenc =>
    simp only [exec, execFenc, hcmd] at hs hu
    cases hc : u.cmdIn.command with
    | none =>
      simp only [hc] at hs hu
      cases hs
      cases hu
      rfl
    | some c =>
      simp only [hc] at hs hu
      cases hs
      cases hu
      exact fencOn_out_congr c s u
  | send =>
    simp only [exec, execSend, hcmd] at hs hu
    cases hc : u.cmdIn.command with
    | none =>
      simp only [hc] at hs hu
      cases hs
      cases hu
      rfl
    | some c =>
      simp only [hc] at hs hu
      cases hs
      cases hu
      exact sendOn_out_congr c s u
  | fdec =>
    cases hs
    cases hu
    exact fdecBuffer_out_congr hframe
  | penc =>
    cases hs
    cases hu
    exact pencBuffer_out_congr hframe
  | pdec =>
    cases hs
    cases hu
    rw [hpulses]
    exact pdecEnd_out_congr _ s u
  | recv =>
    cases hs
    cases hu
    rw [hpulses]
    exact recvEnd_out_congr _ s u
  | frameOff | frameAuto | frameCool | frameDry | frameFanOnly | frameEco | frameSleep =>
    cases hs
    cases hu
    rfl

/-! ## The step -/

theorem step_of_decodeWord_ok {s : State} {r : Request} {rest : List Request} {i : Instr}
    (hr : s.requests = r :: rest) (hd : decodeWord r.word = .ok i) :
    step s = exec i (takeRequest r rest s) := by
  simp [step, serve, hr, hd]

theorem step_of_decodeWord_error {s : State} {r : Request} {rest : List Request} {e : Reject}
    (hr : s.requests = r :: rest) (hd : decodeWord r.word = .error e) :
    step s = .next (rejectRequest e r.word (takeRequest r rest s)) := by
  simp [step, serve, hr, hd]

@[simp] theorem rejectRequest_requests (e : Reject) (w : PortWord) (s : State) :
    (rejectRequest e w s).requests = s.requests := by
  cases e <;> cases w <;> rfl

/-- A step with a request waiting answers a next state, with that request taken and the rest
waiting. -/
theorem step_takes_oldest {s : State} {r : Request} {rest : List Request}
    (hr : s.requests = r :: rest) : ∃ t : State, step s = .next t ∧ t.requests = rest := by
  cases hd : decodeWord r.word with
  | ok i =>
    obtain ⟨t, ht⟩ := exec_next i (takeRequest r rest s)
    obtain ⟨hreq, -⟩ := instructionsChangeOnlyTheirOwnRegisters i _ t ht
    exact ⟨t, (step_of_decodeWord_ok hr hd).trans ht, hreq⟩
  | error e => exact ⟨_, step_of_decodeWord_error hr hd, by simp⟩

/-- Two steps that serve the same request present the same result, whatever the two states hold
beside it. -/
theorem step_out_congr {s t u v : State} {r : Request} {rest rest' : List Request}
    (hrs : s.requests = r :: rest) (hru : u.requests = r :: rest')
    (hs : step s = .next t) (hu : step u = .next v) : t.out = v.out := by
  cases hd : decodeWord r.word with
  | ok i =>
    rw [step_of_decodeWord_ok hrs hd] at hs
    rw [step_of_decodeWord_ok hru hd] at hu
    exact exec_out_congr hs hu rfl rfl rfl
  | error e =>
    rw [step_of_decodeWord_error hrs hd] at hs
    rw [step_of_decodeWord_error hru hd] at hu
    cases hs
    cases hu
    exact rejectRequest_out_congr e r.word _ _

end Sys2Proof.Machine

open Sys2Proof Sys2Proof.Machine

/-- Settles O8: the function is the result of the request when it waits alone after reset. -/
theorem resultDependsOnTheRequestAlone : Obligations.ResultDependsOnTheRequestAlone := by
  have hreset : ∀ r : Request, ∃ v : State, step (submit r State.reset) = .next v := fun r =>
    (step_takes_oldest (s := submit r State.reset) rfl).imp fun _ h => h.1
  choose served hserved using hreset
  refine ⟨fun r => (served r).out, fun s r rest hr => ?_⟩
  obtain ⟨t, ht, hrest⟩ := step_takes_oldest hr
  exact ⟨t, ht, step_out_congr hr rfl ht (hserved r), hrest⟩

end

section
/-! SUPPORT. Two requests served in either order. -/

open Sys2Proof Sys2Proof.Machine

/-- Settles O9: the result of a request is a function of the request alone (O8), so each of the two
orders presents the function's value at `a` and its value at `b`. -/
theorem eitherOrderGivesTheSameResults : Obligations.EitherOrderGivesTheSameResults := by
  obtain ⟨respond, hstep⟩ := resultDependsOnTheRequestAlone
  intro s a b rest
  obtain ⟨t, ht, hat, hbWaits⟩ := hstep { s with requests := a :: b :: rest } a (b :: rest) rfl
  obtain ⟨u, hu, hbu, -⟩ := hstep t b rest hbWaits
  obtain ⟨v, hv, hbv, haWaits⟩ := hstep { s with requests := b :: a :: rest } b (a :: rest) rfl
  obtain ⟨w, hw, haw, -⟩ := hstep v a rest haWaits
  exact ⟨t, u, v, w, ht, hu, hv, hw, hat.trans haw.symm, hbu.trans hbv.symm⟩

end

section
/-! SUPPORT. Decoder and encoder (O11, O12, O10, O6): the bytes of a port word stand for it and it
alone, and so does the port word of an instruction. -/

namespace Sys2Proof

open Sys2Proof.Machine

/-! ## Port words and their bytes -/

@[simp] theorem portWord_ofBytes_bytes (w : PortWord) : PortWord.ofBytes w.bytes = .ok w := by
  cases w with
  | op3 code => revert code; decide
  | frame72 F => rfl

/-- A byte below 8 is the byte of its three select lines: its upper bits are zero (log 6). -/
theorem byte_of_select_lines {b : Byte} (h : b.toNat < 8) :
    BitVec.ofNat 8 (BitVec.ofNat 3 b.toNat).toNat = b := by
  revert b; decide

theorem bytes_of_portWord_ofBytes {bs : List Byte} {w : PortWord}
    (h : PortWord.ofBytes bs = .ok w) : w.bytes = bs := by
  unfold PortWord.ofBytes at h
  split at h
  · split_ifs at h with hb
    cases h
    exact congrArg (fun b => [b]) (byte_of_select_lines hb)
  · cases h
    rfl
  · cases h

@[simp] theorem decode_bytes (w : PortWord) : decode w.bytes = decodeWord w := by
  simp [decode]

/-- A byte string that decodes is the bytes of a port word that decodes. -/
theorem exists_portWord_of_decode_ok {bs : List Byte} {i : Instr} (h : decode bs = .ok i) :
    ∃ w : PortWord, w.bytes = bs ∧ decodeWord w = .ok i := by
  unfold decode at h
  split at h
  · next w hw => exact ⟨w, bytes_of_portWord_ofBytes hw, h⟩
  · cases h

/-! ## The word of an instruction is read as that instruction -/

/-- The frame of the OFF form passes both checks, and its power byte makes it OFF. -/
theorem decodeFrame_off_toFrame (x : OffFields) : decodeFrame x.toFrame = .ok (.frameOff x) := by
  simp [decodeFrame, OffFields.toFrame, Frame.offFields]

/-- The frame of another form passes both checks, and is not OFF because its fields are well-formed:
its nibble selects the form (`30_encoding.md` R100). -/
theorem decodeFrame_on_toFrame {x : OnFields} (h : x.wellFormed = true) (n : Nibble) :
    decodeFrame (x.toFrame n) = formOfNibble n x := by
  have hon : x.powerState ≠ PWR_OFF := bne_iff_ne.1 h
  have hform : formOfNibble (lowerNibble (x.toFrame n).fanMode) (x.toFrame n).onFields
      = formOfNibble n x := by
    rw [toFrame_onFields, OnFields.toFrame, lowerNibble_nibbles]
  rw [← hform]
  simp [decodeFrame, OnFields.toFrame, hon]

theorem decodeWord_encodeWord {i : Instr} (h : i.wellFormed = true) :
    decodeWord (encodeWord i) = .ok i := by
  cases i with
  | fenc | fdec | penc | pdec | send | recv => rfl
  | frameOff x => exact decodeFrame_off_toFrame x
  | frameAuto x | frameCool x | frameDry x | frameFanOnly x | frameEco x | frameSleep x =>
    exact decodeFrame_on_toFrame h _

/-! ## A word that is read is the word of what it is read as -/

theorem encodeWord_of_decodeOp {code : BitVec 3} {i : Instr} (h : decodeOp code = .ok i) :
    encodeWord i = .op3 code ∧ i.wellFormed = true := by
  unfold decodeOp at h
  split at h <;> cases h <;> exact ⟨rfl, rfl⟩

theorem encodeWord_of_formOfNibble {n : Nibble} {x : OnFields} {i : Instr}
    (h : formOfNibble n x = .ok i) :
    encodeWord i = .frame72 (x.toFrame n) ∧ i.wellFormed = x.wellFormed := by
  obtain ⟨rfl, rfl⟩ | ⟨rfl, rfl⟩ | ⟨rfl, rfl⟩ | ⟨rfl, rfl⟩ | ⟨rfl, rfl⟩ | ⟨rfl, rfl⟩ :=
    formOfNibble_cases h <;> exact ⟨rfl, rfl⟩

/-- The checks that let a frame be read are what makes it the frame of its fields: the checksum byte
is the one the other bytes determine (`30_encoding.md` R88). -/
theorem encodeWord_of_decodeFrame {F : Frame} {i : Instr} (h : decodeFrame F = .ok i) :
    encodeWord i = .frame72 F ∧ i.wellFormed = true := by
  obtain ⟨hid, hsum, ⟨hoff, rfl⟩ | ⟨hon, hform⟩⟩ := decodeFrame_cases h
  · exact ⟨congrArg PortWord.frame72 (offFields_toFrame hid hoff hsum), rfl⟩
  · obtain ⟨hword, hwf⟩ := encodeWord_of_formOfNibble hform
    rw [onFields_toFrame hid hsum] at hword
    exact ⟨hword, hwf.trans (bne_iff_ne.2 hon)⟩

theorem encodeWord_of_decodeWord {w : PortWord} {i : Instr} (h : decodeWord w = .ok i) :
    encodeWord i = w ∧ i.wellFormed = true := by
  cases w with
  | op3 code => exact encodeWord_of_decodeOp h
  | frame72 F => exact encodeWord_of_decodeFrame h

/-! ## A word that is read as nothing -/

theorem decodeWord_reserved {code : BitVec 3} (h : code = 6 ∨ code = 7) :
    decodeWord (.op3 code) = .error .reservedOpCode := by
  rcases h with rfl | rfl <;> rfl

end Sys2Proof

open Sys2Proof Sys2Proof.Machine

/-- Settles O11: the bytes of a word are read as that word, and the word of a well-formed
instruction as that instruction. -/
theorem decodeOfEncodeIsTheInstruction : Obligations.DecodeOfEncodeIsTheInstruction := by
  intro i hwf
  rw [encode, decode_bytes, decodeWord_encodeWord hwf]

/-- Settles O12: the bytes are those of a port word, and that word is the one its instruction is
encoded as. -/
theorem encodeOfDecodeIsTheWord : Obligations.EncodeOfDecodeIsTheWord := by
  intro bs i h
  obtain ⟨w, rfl, hw⟩ := exists_portWord_of_decode_ok h
  obtain ⟨henc, hwf⟩ := encodeWord_of_decodeWord hw
  exact ⟨congrArg PortWord.bytes henc, hwf⟩

/-- Settles O10, by running the decoder on the twelve words. -/
theorem specWordsDecodeToTheirInstructions : Obligations.SpecWordsDecodeToTheirInstructions := by
  unfold Obligations.SpecWordsDecodeToTheirInstructions
  decide

/-- Settles O6: the decoder rejects the code, and the request taken is refused. -/
theorem reservedOperationCodeIsRefused : Obligations.ReservedOperationCodeIsRefused := by
  intro s r rest code hr hword hcode
  have hreject : decodeWord r.word = .error .reservedOpCode := by
    rw [hword]
    exact decodeWord_reserved hcode
  exact step_of_decodeWord_error hr hreject

end

section
/-! SUPPORT. Command words (O14, O15, O22): the fields of a word as numbers, and the codes that the
fields stand for (`30_encoding.md` R103). -/

namespace Sys2Proof.Machine

/-! ## The codes and their numbers -/

@[simp] theorem modeCode_toNat (m : Mode) : (modeCode m).toNat = modeNumber m := by
  cases m <;> rfl

@[simp] theorem fanCode_toNat (f : FanSpeed) : (fanCode f).toNat = fanNumber f := by
  cases f <;> rfl

@[simp] theorem presetCode_toNat (p : Preset) : (presetCode p).toNat = presetNumber p := by
  cases p <;> rfl

theorem modeOfCode_eq_some_iff (n : BitVec 3) (m : Mode) :
    modeOfCode n = some m ↔ modeNumber m = n.toNat := by
  revert n; cases m <;> decide

theorem fanOfCode_eq_some_iff (n : BitVec 2) (f : FanSpeed) :
    fanOfCode n = some f ↔ fanNumber f = n.toNat := by
  revert n; cases f <;> decide

theorem presetOfCode_eq_some_iff (n : BitVec 2) (p : Preset) :
    presetOfCode n = some p ↔ presetNumber p = n.toNat := by
  revert n; cases p <;> decide

theorem modeOfCode_eq_none_iff (n : BitVec 3) : modeOfCode n = none ↔ 6 ≤ n.toNat := by
  revert n; decide

theorem fanOfCode_eq_none_iff (n : BitVec 2) : fanOfCode n = none ↔ n.toNat = 0 := by
  revert n; decide

theorem presetOfCode_eq_none_iff (n : BitVec 2) : presetOfCode n = none ↔ n.toNat = 3 := by
  revert n; decide

/-! ## The fields of a word -/

theorem modeField_toNat (cw : BitVec 16) : (cw.extractLsb' 0 3).toNat = cw.toNat % 8 := by
  simp [BitVec.extractLsb'_toNat]

theorem fanField_toNat (cw : BitVec 16) : (cw.extractLsb' 3 2).toNat = cw.toNat / 8 % 4 := by
  simp [BitVec.extractLsb'_toNat, Nat.shiftRight_eq_div_pow]

theorem presetField_toNat (cw : BitVec 16) : (cw.extractLsb' 5 2).toNat = cw.toNat / 32 % 4 := by
  simp [BitVec.extractLsb'_toNat, Nat.shiftRight_eq_div_pow]

theorem temperatureField_toNat (cw : BitVec 16) : (cw.extractLsb' 8 8).toNat = cw.toNat / 256 := by
  have hcw := cw.isLt
  simp only [BitVec.extractLsb'_toNat, Nat.shiftRight_eq_div_pow]
  omega

/-- A command word as a number: each field at its bits. -/
theorem commandWord_toNat (m : BitVec 3) (f p : BitVec 2) (tp : BitVec 1) (t : Byte) :
    (commandWord m f p tp t).toNat =
      m.toNat + 8 * f.toNat + 32 * p.toNat + 128 * tp.toNat + 256 * t.toNat := by
  have happend {k n : Nat} (x : BitVec k) (y : BitVec n) :
      (x ++ y).toNat = x.toNat * 2 ^ n + y.toNat := by
    rw [BitVec.toNat_append, ← Nat.shiftLeft_add_eq_or_of_lt y.isLt, Nat.shiftLeft_eq]
  simp only [commandWord, happend]
  ring

/-- An 8-bit temperature is in its field as it is. -/
theorem ofInt_temperature_toNat {t : Int} (h0 : 0 ≤ t) (h1 : t ≤ 255) :
    (BitVec.ofInt 8 t).toNat = t.toNat := by
  rw [BitVec.toNat_ofInt]
  omega

/-! ## The command a word stands for -/

theorem commandOfWord_eq_some_iff (cw : BitVec 16) (c : SemanticCommand) :
    commandOfWord cw = some c ↔
      modeNumber c.mode = cw.toNat % 8 ∧ fanNumber c.fanSpeed = cw.toNat / 8 % 4 ∧
        presetNumber c.preset = cw.toNat / 32 % 4 ∧
        c.temperature = ((cw.toNat / 256 : Nat) : Int) := by
  obtain ⟨m, p, f, t⟩ := c
  rw [← modeField_toNat, ← fanField_toNat, ← presetField_toNat, ← temperatureField_toNat,
    ← modeOfCode_eq_some_iff, ← fanOfCode_eq_some_iff, ← presetOfCode_eq_some_iff]
  unfold commandOfWord
  split
  · next hm hf hp =>
    simp only [hm, hf, hp, Option.some.injEq, SemanticCommand.mk.injEq, eq_comm (a := t)]
    tauto
  · next hnone =>
    exact ⟨nofun, fun ⟨hm, hf, hp, _⟩ => absurd hp (hnone m f p hm hf)⟩

/-- A word stands for no command exactly when one of its codes stands for nothing. -/
theorem commandOfWord_eq_none_iff (cw : BitVec 16) :
    commandOfWord cw = none ↔
      6 ≤ cw.toNat % 8 ∨ cw.toNat / 8 % 4 = 0 ∨ cw.toNat / 32 % 4 = 3 := by
  rw [← modeField_toNat, ← fanField_toNat, ← presetField_toNat,
    ← modeOfCode_eq_none_iff, ← fanOfCode_eq_none_iff, ← presetOfCode_eq_none_iff]
  unfold commandOfWord
  split
  · next hm hf hp => simp [hm, hf, hp]
  · next hnone =>
    refine iff_of_true rfl ?_
    by_contra hsome
    simp only [not_or, ← ne_eq, Option.ne_none_iff_exists'] at hsome
    obtain ⟨⟨m, hm⟩, ⟨f, hf⟩, ⟨p, hp⟩⟩ := hsome
    exact hnone m f p hm hf hp

/-- The word of a command stands for it, whatever bit 7 is. -/
theorem commandOfWord_commandWord {c : SemanticCommand} (h0 : 0 ≤ c.temperature)
    (h1 : c.temperature ≤ 255) (tp : BitVec 1) :
    commandOfWord (commandWord (modeCode c.mode) (fanCode c.fanSpeed) (presetCode c.preset) tp
      (BitVec.ofInt 8 c.temperature)) = some c := by
  have hm : modeNumber c.mode < 8 := modeCode_toNat c.mode ▸ (modeCode c.mode).isLt
  have hf : fanNumber c.fanSpeed < 4 := fanCode_toNat c.fanSpeed ▸ (fanCode c.fanSpeed).isLt
  have hp : presetNumber c.preset < 4 := presetCode_toNat c.preset ▸ (presetCode c.preset).isLt
  have htp : tp.toNat < 2 := tp.isLt
  rw [commandOfWord_eq_some_iff, commandWord_toNat, modeCode_toNat, fanCode_toNat, presetCode_toNat,
    ofInt_temperature_toNat h0 h1]
  omega

/-- Clearing bit 7 of a command word. -/
theorem commandWord_xor_bit7 (m : BitVec 3) (f p : BitVec 2) (t : Byte) :
    commandWord m f p 1 t ^^^ 0x0080 = commandWord m f p 0 t := by
  have hbit : (0x0080 : BitVec 16) = commandWord 0 0 0 1 0 := by decide
  have hxor : (t ++ 1#1 ++ p ++ f ++ m) ^^^ (0#8 ++ 1#1 ++ 0#2 ++ 0#2 ++ 0#3)
      = t ++ 0#1 ++ p ++ f ++ m := by
    simp only [BitVec.xor_append, BitVec.xor_zero, BitVec.xor_self]
  rw [hbit]
  exact hxor

/-- The temperature of a legal decoded command fits its field. -/
theorem temperature_bounds_of_legal {d : DecodedCommand} (h : d.Legal) {t : Int}
    (ht : d.temperature = some t) : 0 ≤ t ∧ t ≤ 255 := by
  obtain ⟨-, -, -, habsent, hcool⟩ := h
  have hmode : d.mode = .cool := by
    by_contra hne
    simp [habsent hne] at ht
  obtain ⟨u, hu, hbounds⟩ := hcool hmode
  rw [hu] at ht
  cases ht
  exact hbounds

/-! ## A request that is refused -/

theorem exec_fenc_of_no_command {s : State} (h : s.cmdIn.command = none) :
    exec .fenc s = .next (refuseRequest s) := by
  simp [exec, execFenc, h]

theorem exec_send_of_no_command {s : State} (h : s.cmdIn.command = none) :
    exec .send s = .next (refuseRequest s) := by
  simp [exec, execSend, h]

end Sys2Proof.Machine

open Sys2Proof Sys2Proof.Machine

/-- Settles O14: the codes and the fields are read as numbers, and clearing bit 7 leaves every other
field. -/
theorem commandWordCarriesTheCommand : Obligations.CommandWordCarriesTheCommand := by
  refine ⟨fun c h0 h1 => ⟨commandOfWord_commandWord h0 h1 1, ?_⟩, commandOfWord_eq_some_iff,
    commandOfWord_eq_none_iff⟩
  rw [wordOfCommand, commandWord_xor_bit7]
  exact commandOfWord_commandWord h0 h1 0

/-- Settles O15: the word is the sum of its fields, and a temperature that is present fits its
own. -/
theorem resultWordCarriesTheDecodedCommand : Obligations.ResultWordCarriesTheDecodedCommand := by
  intro d hd
  obtain ⟨mode, preset, fan, temperature⟩ := d
  have hbounds : ∀ t : Int, temperature = some t → 0 ≤ t ∧ t ≤ 255 := fun _ =>
    temperature_bounds_of_legal hd
  rw [wordOfDecoded, commandWord_toNat, modeCode_toNat, presetCode_toNat]
  cases temperature with
  | none => cases fan <;> simp
  | some t =>
    obtain ⟨h0, h1⟩ := hbounds t rfl
    cases fan <;> simp [ofInt_temperature_toNat h0 h1, Nat.add_assoc]

/-- Settles O22: such a word stands for no command, so FENC and SEND refuse the request. -/
theorem reservedCommandCodesAreRefused : Obligations.ReservedCommandCodesAreRefused := by
  intro s cw hcmd hreserved
  have hnone : s.cmdIn.command = none := by
    rw [hcmd]
    exact (commandOfWord_eq_none_iff cw).2 hreserved
  exact ⟨exec_fenc_of_no_command hnone, exec_send_of_no_command hnone⟩

end

section
/-! SUPPORT. The frames FDEC accepts (O13): the decoder of frame forms and FDEC make the same
checks, and both know the same six mode nibbles (`30_encoding.md` R91). -/

namespace Sys2Proof.Machine

theorem checksPass_iff (F : Frame) :
    ChecksPass F ↔
      F.deviceId = DEVICE_ID ∧ F.checksum = csum F.powerState F.fanMode F.tempOrMode := by
  rw [ChecksPass, sumOfFrame, ← csum_toNat, BitVec.toNat_inj]
  rfl

/-- The mode nibbles that have a meaning (`30_encoding.md` R85). -/
def knownNibbles : List Nibble := [NIB_AUTO, NIB_COOL, NIB_DRY, NIB_FAN, NIB_ECO, NIB_SLEEP]

theorem modeNibbleOf_mem_iff (F : Frame) :
    modeNibbleOf F ∈ [0, 1, 2, 3, 5, 6] ↔ lowerNibble F.fanMode ∈ knownNibbles := by
  have hnibble : ∀ n : Nibble, n.toNat ∈ [0, 1, 2, 3, 5, 6] ↔ n ∈ knownNibbles := by decide
  rw [modeNibbleOf, ← lowerNibble_toNat, hnibble]

theorem exists_formOfNibble_ok_iff (n : Nibble) (x : OnFields) :
    (∃ i : Instr, formOfNibble n x = .ok i) ↔ n ∈ knownNibbles := by
  unfold formOfNibble
  split_ifs <;> simp_all [knownNibbles]

theorem exists_decodeMode_ok_iff (F : Frame) :
    (∃ d : DecodedCommand, decodeMode F = .ok d) ↔ lowerNibble F.fanMode ∈ knownNibbles := by
  unfold decodeMode
  split_ifs <;> simp_all [knownNibbles]

theorem exists_decodeFrame_ok_iff (F : Frame) :
    (∃ i : Instr, decodeFrame F = .ok i) ↔
      ChecksPass F ∧ (F.powerState = 0x00 ∨ modeNibbleOf F ∈ [0, 1, 2, 3, 5, 6]) := by
  rw [checksPass_iff, modeNibbleOf_mem_iff, ← exists_formOfNibble_ok_iff _ F.onFields]
  constructor
  · rintro ⟨i, h⟩
    obtain ⟨hid, hsum, ⟨hoff, -⟩ | ⟨-, hform⟩⟩ := decodeFrame_cases h
    · exact ⟨⟨hid, hsum⟩, .inl hoff⟩
    · exact ⟨⟨hid, hsum⟩, .inr ⟨i, hform⟩⟩
  · rintro ⟨⟨hid, hsum⟩, h⟩
    by_cases hoff : F.powerState = PWR_OFF
    · exact ⟨_, by rw [decodeFrame, if_neg (not_not.2 hid), if_neg (not_not.2 hsum), if_pos hoff]⟩
    · rw [decodeFrame, if_neg (not_not.2 hid), if_neg (not_not.2 hsum), if_neg hoff]
      exact h.resolve_left hoff

/-- FDEC makes the decoder's checks in the decoder's order, and its mapping has a row for each
form. -/
theorem exists_fdec_ok_iff_exists_decodeFrame_ok (F : Frame) :
    (∃ d : DecodedCommand, fdec F = .ok d) ↔ ∃ i : Instr, decodeFrame F = .ok i := by
  unfold fdec decodeFrame
  split_ifs
  · simp
  · simp
  · simp
  · rw [exists_decodeMode_ok_iff, exists_formOfNibble_ok_iff]

theorem fdecBuffer_command_iff (s : State) (d : DecodedCommand) :
    (fdecBuffer s).out = some (.ok (.command d)) ↔ fdec s.F = .ok d := by
  cases h : fdec s.F <;> simp [fdecBuffer, h]

/-- FDEC presents a command where the function FDEC answers it on the frame operand. -/
theorem exec_fdec_command_iff {s t : State} (h : exec .fdec s = .next t) (d : DecodedCommand) :
    t.out = some (.ok (.command d)) ↔ fdec s.frameIn = .ok d := by
  cases h
  rw [fdecBuffer_command_iff, loadFrame_F]

theorem exists_exec_fdec_command_iff (s : State) :
    (∃ (t : State) (d : DecodedCommand),
        exec .fdec s = .next t ∧ t.out = some (.ok (.command d))) ↔
      ∃ d : DecodedCommand, fdec s.frameIn = .ok d := by
  constructor
  · rintro ⟨t, d, h, hout⟩
    exact ⟨d, (exec_fdec_command_iff h d).1 hout⟩
  · rintro ⟨d, hd⟩
    obtain ⟨t, h⟩ := exec_next .fdec s
    exact ⟨t, d, h, (exec_fdec_command_iff h d).2 hd⟩

end Sys2Proof.Machine

open Sys2Proof Sys2Proof.Machine

/-- Settles O13: the decoder and FDEC answer under the same condition. -/
theorem frameWordDecodesExactlyWhenFdecAccepts :
    Obligations.FrameWordDecodesExactlyWhenFdecAccepts := by
  rintro s F rfl
  refine ⟨exists_decodeFrame_ok_iff s.frameIn, ?_⟩
  rw [exists_exec_fdec_command_iff, exists_fdec_ok_iff_exists_decodeFrame_ok,
    exists_decodeFrame_ok_iff]

end

section
/-! SUPPORT. The fan/mode bytes of FENC (O23): every branch of FENC writes a byte of the list of
`30_encoding.md` R90, and one command is given for each byte. -/

namespace Sys2Proof.Machine

theorem exec_fenc_of_command {s : State} {c : SemanticCommand} (h : s.cmdIn.command = some c) :
    exec .fenc s = .next (fencOn c s) := by
  simp [exec, execFenc, h]

/-- FENC presents a frame where the function FENC answers it on the command operand. -/
theorem exec_fenc_frame_iff {s t : State} (h : exec .fenc s = .next t) (F : Frame) :
    t.out = some (.ok (.frame F)) ↔ ∃ c, s.cmdIn.command = some c ∧ fenc c = .ok F := by
  cases hc : s.cmdIn.command with
  | none =>
    cases (exec_fenc_of_no_command hc).symm.trans h
    simp
  | some c =>
    cases (exec_fenc_of_command hc).symm.trans h
    cases hf : fenc c <;> simp [fencOn, hf]

/-- The list of `30_encoding.md` R90. -/
def listedFanModes : List Nat :=
  [0x10, 0x20, 0x30, 0x11, 0x21, 0x31, 0x12, 0x13, 0x23, 0x33, 0x15, 0x25, 0x35, 0x16, 0x26, 0x36]

@[simp] theorem buildFrame_fanMode (p fm t : Byte) : (buildFrame p fm t).fanMode = fm := rfl

theorem fanMode_mem_of_fenc_ok {c : SemanticCommand} {F : Frame} (h : fenc c = .ok F) :
    F.fanMode.toNat ∈ listedFanModes := by
  cases hm : c.mode with
  | off =>
    rw [fenc_off hm] at h
    cases h
    decide
  | auto =>
    rw [fenc_auto hm] at h
    cases h
    rw [buildFrame_fanMode]
    cases c.fanSpeed <;> decide
  | fanOnly =>
    rw [fenc_fanOnly hm] at h
    cases h
    rw [buildFrame_fanMode]
    cases c.fanSpeed <;> decide
  | dry =>
    rw [fenc_dry hm] at h
    cases h
    rw [buildFrame_fanMode]
    decide
  | heat =>
    rw [fenc_heat hm] at h
    cases h
  | cool =>
    by_cases ht : 62 ≤ c.temperature ∧ c.temperature ≤ 86
    · rw [fenc_cool_ok hm ht.1 ht.2] at h
      cases h
      rw [buildFrame_fanMode]
      cases c.fanSpeed <;> cases c.preset <;> decide
    · rw [fenc_cool_error hm (by omega)] at h
      cases h

/-- AUTO, FAN_ONLY, DRY, and COOL with each preset, at each fan speed and 72 degrees. -/
def sampleCommands : List SemanticCommand :=
  [FanSpeed.low, .med, .high].flatMap fun f =>
    [⟨.auto, .none, f, 72⟩, ⟨.fanOnly, .none, f, 72⟩, ⟨.dry, .none, f, 72⟩, ⟨.cool, .none, f, 72⟩,
      ⟨.cool, .eco, f, 72⟩, ⟨.cool, .sleep, f, 72⟩]

theorem exists_fenc_ok_of_fanMode_mem {b : Byte} (h : b.toNat ∈ listedFanModes) :
    ∃ (c : SemanticCommand) (F : Frame), fenc c = .ok F ∧ F.fanMode = b := by
  have hsample : ∀ b : Byte, b.toNat ∈ listedFanModes →
      ∃ c ∈ sampleCommands, (fenc c).toOption.map Frame.fanMode = some b := by decide
  obtain ⟨c, -, hc⟩ := hsample b h
  cases hf : fenc c with
  | ok F => exact ⟨c, F, hf, by simpa [hf, Except.toOption] using hc⟩
  | error k => simp [hf, Except.toOption] at hc

end Sys2Proof.Machine

open Sys2Proof Sys2Proof.Machine

/-- Settles O23: FENC presents the frames that the function FENC answers, and their fan/mode bytes
are those of the list. -/
theorem fencFanModeBytesAreTheSixteen : Obligations.FencFanModeBytesAreTheSixteen := by
  intro b
  constructor
  · rintro ⟨s, t, F, h, hout, rfl⟩
    obtain ⟨c, -, hc⟩ := (exec_fenc_frame_iff h F).1 hout
    exact fanMode_mem_of_fenc_ok hc
  · intro hb
    obtain ⟨c, F, hc, hF⟩ := exists_fenc_ok_of_fanMode_mem hb
    obtain ⟨t, h⟩ := exec_next .fenc { State.reset with cmdIn := .typed c }
    exact ⟨_, t, F, h, (exec_fenc_frame_iff h F).2 ⟨c, rfl, hc⟩, hF⟩

end

section
/-! SUPPORT. FENC builds the frames of the spec's rows (O16, O17, O18, O19, O24): the function FENC
answers exactly the frame its command is laid out as. -/

namespace Sys2Proof.Machine

/-! ## The bytes of the model and the bytes of the spec's tables -/

/-- The checksum as the sum of `30_encoding.md` R88. -/
theorem csum_eq_ofNat (p m t : Byte) :
    csum p m t = BitVec.ofNat 8 ((p.toNat + m.toNat + t.toNat) % 256) := by
  rw [← csum_toNat, BitVec.ofNat_toNat, BitVec.setWidth_eq]

theorem buildFrame_eq_frameOfBytes (p fm t : Byte) : buildFrame p fm t = frameOfBytes p fm t := by
  rw [buildFrame, csum_eq_ofNat]
  rfl

theorem powerByte_eq_powerOf (p : Preset) : powerByte p = powerOf p := by
  cases p <;> rfl

/-- `fan_nib | mode_nib` is a sum, for the two fields do not overlap (`30_encoding.md` R83). -/
theorem fanModeByte_fanByte (f : FanSpeed) (n : Nibble) :
    fanModeByte (fanByte f) n = fanModeOf f n.toNat := by
  revert n; cases f <;> decide

@[simp] theorem coolNib_toNat (p : Preset) : (coolNib p).toNat = coolNibble p := by
  cases p <;> rfl

/-- In the range, the temperature byte 0x3E + (f - 62) is f itself (`40_framecodec.md` R123). -/
theorem ofInt_temperature_eq {t : Int} (h : 62 ≤ t) :
    BitVec.ofInt 8 t = BitVec.ofNat 8 (0x3E + (t.toNat - 62)) := by
  have ht : t = ((0x3E + (t.toNat - 62) : Nat) : Int) := by omega
  conv_lhs => rw [ht]
  exact BitVec.ofInt_natCast 8 _

/-! ## What FENC answers -/

/-- FENC as a function answers a frame exactly where the command has one, and that one
(`40_framecodec.md` R124). -/
theorem fenc_ok_iff_encodesTo (c : SemanticCommand) (F : Frame) :
    fenc c = .ok F ↔ EncodesTo c F := by
  unfold EncodesTo
  cases hm : c.mode with
  | off =>
    rw [fenc_off hm, Except.ok.injEq, eq_comm]
    rfl
  | fanOnly =>
    rw [fenc_fanOnly hm, Except.ok.injEq, eq_comm, buildFrame_eq_frameOfBytes,
      powerByte_eq_powerOf, fanModeByte_fanByte]
    rfl
  | auto =>
    rw [fenc_auto hm, Except.ok.injEq, eq_comm, buildFrame_eq_frameOfBytes,
      powerByte_eq_powerOf, fanModeByte_fanByte]
    rfl
  | dry =>
    rw [fenc_dry hm, Except.ok.injEq, eq_comm, buildFrame_eq_frameOfBytes, powerByte_eq_powerOf]
    rfl
  | heat => simp [fenc_heat hm]
  | cool =>
    by_cases ht : 62 ≤ c.temperature ∧ c.temperature ≤ 86
    · obtain ⟨hlow, hhigh⟩ := ht
      rw [fenc_cool_ok hm hlow hhigh, Except.ok.injEq, eq_comm, buildFrame_eq_frameOfBytes,
        powerByte_eq_powerOf, fanModeByte_fanByte, coolNib_toNat, ofInt_temperature_eq hlow]
      simp [hlow, hhigh]
    · rw [fenc_cool_error hm (by omega)]
      exact iff_of_false nofun fun h => ht ⟨h.1, h.2.1⟩

/-- FENC on a command that has a frame presents it and leaves it in the buffer, and changes nothing
else (`10_state.md` R23). -/
theorem exec_fenc_of_encodesTo {s : State} {c : SemanticCommand} {F : Frame}
    (hc : s.cmdIn.command = some c) (hF : EncodesTo c F) :
    exec .fenc s = .next { s with F := F, out := some (.ok (.frame F)), busy := false } := by
  rw [exec_fenc_of_command hc, fencOn, (fenc_ok_iff_encodesTo c F).2 hF]
  rfl

theorem exec_fenc_of_fenc_error {s : State} {c : SemanticCommand} {k : Failure}
    (hc : s.cmdIn.command = some c) (hk : fenc c = .error k) :
    exec .fenc s = .next { s with out := some (.err k), busy := false } := by
  rw [exec_fenc_of_command hc, fencOn, hk]
  rfl

/-! ## The frames FENC builds pass FDEC's checks -/

theorem checksPass_frameOfBytes (p fm t : Byte) : ChecksPass (frameOfBytes p fm t) := by
  refine ⟨rfl, ?_⟩
  rw [frameOfBytes, BitVec.toNat_ofNat, Nat.mod_mod]
  rfl

theorem checksPass_of_encodesTo {c : SemanticCommand} {F : Frame} (h : EncodesTo c F) :
    ChecksPass F := by
  unfold EncodesTo at h
  cases hm : c.mode <;> simp only [hm] at h
  case off =>
    rw [h]
    exact ⟨rfl, rfl⟩
  case cool =>
    rw [h.2.2]
    exact checksPass_frameOfBytes _ _ _
  all_goals
    rw [h]
    exact checksPass_frameOfBytes _ _ _

/-- With good checks the only failure left is the unknown nibble (`40_framecodec.md` R140). -/
theorem eq_unknownModeNibble_of_fdec_error {F : Frame} {k : Failure} (hF : ChecksPass F)
    (h : fdec F = .error k) : k = .unknownModeNibble := by
  obtain ⟨hid, hsum⟩ := (checksPass_iff F).1 hF
  unfold fdec at h
  rw [if_neg (not_not.2 hid), if_neg (not_not.2 hsum)] at h
  split_ifs at h
  exact eq_unknownModeNibble_of_decodeMode_error h

end Sys2Proof.Machine

open Sys2Proof Sys2Proof.Machine

/-- Settles O16: OFF is laid out as that one frame, and no other field is asked. -/
theorem fencOffBuildsTheOneOffFrame : Obligations.FencOffBuildsTheOneOffFrame := by
  intro s c hc hm
  exact exec_fenc_of_encodesTo hc (by simp [EncodesTo, hm])

/-- Settles O17: each mode has the frame of its branch, whatever preset and temperature. -/
theorem fencSentinelModesBuildTheirFrames : Obligations.FencSentinelModesBuildTheirFrames := by
  intro s c hc
  refine ⟨fun hm => ?_, fun hm => ?_, fun hm => ?_⟩
  · exact exec_fenc_of_encodesTo hc (by simp [EncodesTo, hm])
  · exact exec_fenc_of_encodesTo hc (by simp [EncodesTo, hm])
  · exact exec_fenc_of_encodesTo hc (by simp [EncodesTo, hm])

/-- Settles O18: in the range, COOL is laid out as the frame of its preset. -/
theorem fencCoolBuildsItsFrame : Obligations.FencCoolBuildsItsFrame := by
  intro s c hc hm hlow hhigh
  exact exec_fenc_of_encodesTo hc (by simp [EncodesTo, hm, hlow, hhigh])

/-- Settles O19: FENC answers a failure on HEAT, and no register is written for it. -/
theorem fencHeatFailsWithNoFrame : Obligations.FencHeatFailsWithNoFrame := by
  intro s c hc hm
  exact exec_fenc_of_fenc_error hc (fenc_heat hm)

/-- Settles O24: a frame FENC presents is the one its command is laid out as, and that one passes
both checks. -/
theorem fencFramesCarryTheirChecksum : Obligations.FencFramesCarryTheirChecksum := by
  intro s t F h hout
  obtain ⟨c, -, hc⟩ := (exec_fenc_frame_iff h F).1 hout
  have hF : ChecksPass F := checksPass_of_encodesTo ((fenc_ok_iff_encodesTo c F).1 hc)
  refine ⟨hF.2, ?_⟩
  rintro u v rfl hv
  have hother : ∀ k ≠ .unknownModeNibble, v.out ≠ some (.err k) := fun k hk hout =>
    hk (eq_unknownModeNibble_of_fdec_error hF ((exec_fdec_err_iff hv k).1 hout))
  exact ⟨hother _ (by decide), hother _ (by decide)⟩

end

section
/-! SUPPORT. FDEC delivers the rows of the decode mapping (O26, O27): the function FDEC answers
exactly the command a frame that passes the checks stands for. -/

namespace Sys2Proof.Machine

theorem fanOfByte_eq_fanOfNumber (b : Byte) : fanOfByte b = fanOfNumber (b.toNat / 16) := by
  rw [fanOfByte_eq]
  rfl

theorem modeNibbleOf_eq_iff (F : Frame) (n : Nibble) :
    modeNibbleOf F = n.toNat ↔ lowerNibble F.fanMode = n := by
  rw [modeNibbleOf, ← lowerNibble_toNat, BitVec.toNat_inj]

/-- The decode mapping, row by row (`40_framecodec.md` R145). -/
theorem decodeMode_ok_iff (F : Frame) (d : DecodedCommand) :
    decodeMode F = .ok d ↔
      (lowerNibble F.fanMode = NIB_AUTO ∧ d = ⟨.auto, .none, fanOfByte F.fanMode, none⟩) ∨
      (lowerNibble F.fanMode = NIB_COOL ∧
        d = ⟨.cool, .none, fanOfByte F.fanMode, some (byte2temp F.tempOrMode)⟩) ∨
      (lowerNibble F.fanMode = NIB_DRY ∧ d = ⟨.dry, .none, some .low, none⟩) ∨
      (lowerNibble F.fanMode = NIB_FAN ∧ d = ⟨.fanOnly, .none, fanOfByte F.fanMode, none⟩) ∨
      (lowerNibble F.fanMode = NIB_ECO ∧
        d = ⟨.cool, .eco, fanOfByte F.fanMode, some (byte2temp F.tempOrMode)⟩) ∨
      (lowerNibble F.fanMode = NIB_SLEEP ∧
        d = ⟨.cool, .sleep, fanOfByte F.fanMode, some (byte2temp F.tempOrMode)⟩) := by
  generalize hn : lowerNibble F.fanMode = n
  unfold decodeMode
  rw [hn]
  split_ifs with hauto hcool hdry hfan heco hsleep
  all_goals simp_all [eq_comm (a := d), NIB_AUTO, NIB_COOL, NIB_DRY, NIB_FAN, NIB_ECO, NIB_SLEEP]

/-- FDEC as a function answers a command exactly where the frame passes both checks and stands for
one, and that one (`40_framecodec.md` R140). -/
theorem fdec_ok_iff_decodesTo (F : Frame) (d : DecodedCommand) :
    fdec F = .ok d ↔ ChecksPass F ∧ DecodesTo F d := by
  have hrows : DecodesTo F d ↔
      (F.powerState = PWR_OFF ∧ d = ⟨.off, .none, fanOfByte F.fanMode, none⟩) ∨
        (F.powerState ≠ PWR_OFF ∧ decodeMode F = .ok d) := by
    rw [decodeMode_ok_iff]
    simp only [← modeNibbleOf_eq_iff, fanOfByte_eq_fanOfNumber]
    rfl
  rw [hrows, checksPass_iff]
  constructor
  · intro h
    obtain ⟨hid, hsum, hcase⟩ := fdec_cases h
    exact ⟨⟨hid, hsum⟩, hcase⟩
  · rintro ⟨⟨hid, hsum⟩, ⟨hoff, rfl⟩ | ⟨hon, hd⟩⟩
    · rw [fdec, if_neg (not_not.2 hid), if_neg (not_not.2 hsum), if_pos hoff]
    · rw [fdec, if_neg (not_not.2 hid), if_neg (not_not.2 hsum), if_neg hon, hd]

/-- FDEC on a frame it accepts loads it into the buffer and presents the command, and changes
nothing else (`10_state.md` R23). -/
theorem exec_fdec_of_fdec_ok {s : State} {d : DecodedCommand} (h : fdec s.frameIn = .ok d) :
    exec .fdec s = .next { s with
      F := s.frameIn, out := some (.ok (.command d)), busy := false } := by
  rw [exec, execFdec, fdecBuffer, loadFrame_F, h]
  rfl

theorem exec_fdec_of_fdec_error {s : State} {k : Failure} (h : fdec s.frameIn = .error k) :
    exec .fdec s = .next { s with F := s.frameIn, out := some (.err k), busy := false } := by
  rw [exec, execFdec, fdecBuffer, loadFrame_F, h]
  rfl

theorem exec_fdec_of_decodesTo {s : State} {d : DecodedCommand} (hF : ChecksPass s.frameIn)
    (hd : DecodesTo s.frameIn d) :
    exec .fdec s = .next { s with
      F := s.frameIn, out := some (.ok (.command d)), busy := false } :=
  exec_fdec_of_fdec_ok ((fdec_ok_iff_decodesTo _ d).2 ⟨hF, hd⟩)

end Sys2Proof.Machine

open Sys2Proof Sys2Proof.Machine

/-- Settles O26: with a power byte of 0x00 the frame stands for OFF. -/
theorem fdecPowerOffIsOffUnconditionally : Obligations.FdecPowerOffIsOffUnconditionally := by
  intro s hF hoff
  exact exec_fdec_of_decodesTo hF (.inl ⟨hoff, rfl⟩)

/-- Settles O27: with another power byte the frame stands for the command of its nibble's row. -/
theorem fdecMapsEachModeNibble : Obligations.FdecMapsEachModeNibble := by
  intro s d hF hon hrow
  exact exec_fdec_of_decodesTo hF (.inr ⟨hon, hrow⟩)

end

section
/-! SUPPORT. The bytes FDEC reads (O28, O29): what it makes of a frame with one byte changed
(`40_framecodec.md` R147, R151). -/

namespace Sys2Proof.Machine

/-! ## The bytes FDEC does not read -/

theorem fdec_congr {F G : Frame} (hid : F.deviceId = G.deviceId)
    (hpower : F.powerState = G.powerState) (hfanMode : F.fanMode = G.fanMode)
    (htemp : F.tempOrMode = G.tempOrMode) (hsum : F.checksum = G.checksum) : fdec F = fdec G := by
  have hmode : decodeMode F = decodeMode G := by
    unfold decodeMode
    rw [hfanMode, htemp]
  unfold fdec
  rw [hid, hpower, hfanMode, htemp, hsum, hmode]

/-- The result FDEC presents is the answer of the function FDEC on the frame operand. -/
theorem exec_fdec_out_eq_of_fdec_eq {s t u v : State} (hs : exec .fdec s = .next t)
    (hu : exec .fdec u = .next v) (h : fdec s.frameIn = fdec u.frameIn) : t.out = v.out := by
  cases hf : fdec u.frameIn with
  | ok d =>
    rw [(exec_fdec_command_iff hs d).2 (h.trans hf), (exec_fdec_command_iff hu d).2 hf]
  | error k =>
    rw [(exec_fdec_err_iff hs k).2 (h.trans hf), (exec_fdec_err_iff hu k).2 hf]

/-! ## A frame with one byte changed -/

/-- A flipped bit changes its byte. -/
theorem exists_flipBit_eq_setByte (F : Frame) (i : Fin 9) (j : Fin 8) :
    ∃ v : Byte, v ≠ F.byte i ∧ flipBit F i j = F.setByte i v := by
  refine ⟨writeBit (F.byte i) j (!F.bit i j), fun h => ?_, rfl⟩
  have hbit : (writeBit (F.byte i) j (!F.bit i j)).getLsbD j.val = !F.bit i j := by
    rw [writeBit_getLsbD, if_pos rfl]
  rw [h] at hbit
  exact Bool.not_ne_self _ hbit.symm

theorem fdec_setByte_reserved (F : Frame) {i : Fin 9} (hi : i.val ∈ [3, 5, 6, 7]) (v : Byte) :
    fdec (F.setByte i v) = fdec F := by
  obtain rfl | rfl | rfl | rfl : i = 3 ∨ i = 5 ∨ i = 6 ∨ i = 7 := by
    simp only [List.mem_cons, List.not_mem_nil, or_false] at hi
    omega
  all_goals exact fdec_congr rfl rfl rfl rfl rfl

theorem fdec_setByte_deviceId {F : Frame} (hF : ChecksPass F) {v : Byte} (hv : v ≠ F.byte 0) :
    fdec (F.setByte 0 v) = .error .badDeviceId := by
  have hid : (F.setByte 0 v).deviceId ≠ DEVICE_ID := fun h => hv (h.trans hF.1.symm)
  rw [fdec, if_pos hid]

theorem fdec_of_checksum_ne {F : Frame} (hid : F.deviceId = DEVICE_ID)
    (hsum : F.checksum ≠ csum F.powerState F.fanMode F.tempOrMode) :
    fdec F = .error .checksumMismatch := by
  rw [fdec, if_neg (not_not.2 hid), if_pos hsum]

/-- The sum of three bytes fixes each of them given the other two, so a changed byte breaks the
checksum. -/
theorem fdec_setByte_summed {F : Frame} (hF : ChecksPass F) {i : Fin 9}
    (hi : i.val ∈ [1, 2, 4, 8]) {v : Byte} (hv : v ≠ F.byte i) :
    fdec (F.setByte i v) = .error .checksumMismatch := by
  obtain ⟨hid, hsum⟩ := (checksPass_iff F).1 hF
  obtain rfl | rfl | rfl | rfl : i = 1 ∨ i = 2 ∨ i = 4 ∨ i = 8 := by
    simp only [List.mem_cons, List.not_mem_nil, or_false] at hi
    omega
  · exact fdec_of_checksum_ne hid fun h =>
      hv (add_right_cancel (add_right_cancel (hsum.symm.trans h))).symm
  · exact fdec_of_checksum_ne hid fun h =>
      hv (add_left_cancel (add_right_cancel (hsum.symm.trans h))).symm
  · exact fdec_of_checksum_ne hid fun h => hv (add_left_cancel (hsum.symm.trans h)).symm
  · exact fdec_of_checksum_ne hid fun h => hv (h.trans hsum.symm)

end Sys2Proof.Machine

open Sys2Proof Sys2Proof.Machine

/-- Settles O28: the function FDEC answers the same on both frames. -/
theorem fdecDoesNotReadTheReservedBytes : Obligations.FdecDoesNotReadTheReservedBytes := by
  intro s u t v hid hpower hfanMode htemp hsum hs hu
  exact exec_fdec_out_eq_of_fdec_eq hs hu (fdec_congr hid hpower hfanMode htemp hsum)

/-- Settles O29: a flipped bit is a changed byte, and FDEC's answer depends on which byte it is. -/
theorem singleBitChangesAreDetectedWhereTheChecksReach :
    Obligations.SingleBitChangesAreDetectedWhereTheChecksReach := by
  constructor
  · intro s t d i j hs hout
    obtain ⟨hF, -⟩ := (fdec_ok_iff_decodesTo _ d).1 ((exec_fdec_command_iff hs d).1 hout)
    obtain ⟨v, hv, hflip⟩ := exists_flipBit_eq_setByte s.frameIn i j
    rw [hflip]
    obtain ⟨u, hu⟩ := exec_next .fdec { s with frameIn := s.frameIn.setByte i v }
    refine ⟨u, hu, fun hi => ?_, fun hi => ?_, fun hi => ?_⟩
    · exact (exec_fdec_err_iff hu _).2 (fdec_setByte_summed hF hi hv)
    · obtain rfl : i = 0 := Fin.ext hi
      exact (exec_fdec_err_iff hu _).2 (fdec_setByte_deviceId hF hv)
    · exact exec_fdec_out_eq_of_fdec_eq hu hs (fdec_setByte_reserved _ hi v)
  · intro s hs
    have hd : fdec s.frameIn = .ok ⟨.cool, .none, some .med, some 95⟩ := by
      rw [hs]
      decide
    exact exec_fdec_of_fdec_ok hd

end

section
/-! SUPPORT. FDEC of FENC (O30): what the frame of a canonical command stands for. -/

namespace Sys2Proof.Machine

/-! ## The fields of a frame FENC lays out -/

/-- The fan field and the mode field of the fan/mode byte do not overlap (`30_encoding.md` R83). -/
theorem fanModeOf_toNat (f : FanSpeed) {n : Nat} (hn : n < 16) :
    (fanModeOf f n).toNat = 16 * fanNumber f + n := by
  rw [fanModeOf, BitVec.toNat_ofNat, Nat.mod_eq_of_lt]
  cases f <;> simp only [fanNumber] <;> omega

@[simp] theorem fanOfNumber_fanNumber (f : FanSpeed) : fanOfNumber (fanNumber f) = some f := by
  cases f <;> rfl

theorem fanOfNumber_fanModeOf (f : FanSpeed) {n : Nat} (hn : n < 16) :
    fanOfNumber ((fanModeOf f n).toNat / 16) = some f := by
  have hfan : (fanModeOf f n).toNat / 16 = fanNumber f := by
    rw [fanModeOf_toNat f hn]
    omega
  rw [hfan, fanOfNumber_fanNumber]

theorem modeNibbleOf_frameOfBytes (p t : Byte) (f : FanSpeed) {n : Nat} (hn : n < 16) :
    modeNibbleOf (frameOfBytes p (fanModeOf f n) t) = n := by
  rw [modeNibbleOf, frameOfBytes, fanModeOf_toNat f hn]
  omega

theorem powerOf_ne_zero (p : Preset) : powerOf p ≠ 0x00 := by
  cases p <;> decide

theorem coolNibble_lt (p : Preset) : coolNibble p < 16 := by
  cases p <;> decide

/-- The temperature byte gives its temperature back (`40_framecodec.md` R122, R123). -/
theorem temperature_of_byte {t : Int} (hlow : 62 ≤ t) (hhigh : t ≤ 86) :
    (((BitVec.ofNat 8 (0x3E + (t.toNat - 62))).toNat : Int) - 0x3E) + 62 = t := by
  rw [BitVec.toNat_ofNat, Nat.mod_eq_of_lt] <;> omega

/-! ## The command the frame stands for -/

theorem decodesTo_auto_frame (p : Preset) (f : FanSpeed) :
    DecodesTo (frameOfBytes (powerOf p) (fanModeOf f 0) 0x48) ⟨.auto, .none, some f, none⟩ := by
  have hnibble := modeNibbleOf_frameOfBytes (powerOf p) 0x48 f (n := 0) (by decide)
  rw [← fanOfNumber_fanModeOf f (n := 0) (by decide)]
  exact .inr ⟨powerOf_ne_zero p, .inl ⟨hnibble, rfl⟩⟩

theorem decodesTo_fanOnly_frame (p : Preset) (f : FanSpeed) :
    DecodesTo (frameOfBytes (powerOf p) (fanModeOf f 3) 0x4F) ⟨.fanOnly, .none, some f, none⟩ := by
  have hnibble := modeNibbleOf_frameOfBytes (powerOf p) 0x4F f (n := 3) (by decide)
  rw [← fanOfNumber_fanModeOf f (n := 3) (by decide)]
  exact .inr ⟨powerOf_ne_zero p, .inr (.inr (.inr (.inl ⟨hnibble, rfl⟩)))⟩

theorem decodesTo_dry_frame (p : Preset) :
    DecodesTo (frameOfBytes (powerOf p) 0x12 0x4F) ⟨.dry, .none, some .low, none⟩ := by
  have hnibble := modeNibbleOf_frameOfBytes (powerOf p) 0x4F .low (n := 2) (by decide)
  exact .inr ⟨powerOf_ne_zero p, .inr (.inr (.inl ⟨hnibble, rfl⟩))⟩

/-- The frame of a COOL command gives its preset back, told by the nibble. -/
theorem decodesTo_cool_frame (p : Preset) (f : FanSpeed) {t : Int} (hlow : 62 ≤ t)
    (hhigh : t ≤ 86) :
    DecodesTo (frameOfBytes (powerOf p) (fanModeOf f (coolNibble p))
      (BitVec.ofNat 8 (0x3E + (t.toNat - 62)))) ⟨.cool, p, some f, some t⟩ := by
  have hnibble := modeNibbleOf_frameOfBytes (powerOf p) (BitVec.ofNat 8 (0x3E + (t.toNat - 62))) f
    (coolNibble_lt p)
  have hcommand : (⟨.cool, p, some f, some t⟩ : DecodedCommand) =
      ⟨.cool, p, fanOfNumber ((fanModeOf f (coolNibble p)).toNat / 16),
        some (((BitVec.ofNat 8 (0x3E + (t.toNat - 62))).toNat : Int) - 0x3E + 62)⟩ := by
    rw [fanOfNumber_fanModeOf f (coolNibble_lt p), temperature_of_byte hlow hhigh]
  refine .inr ⟨powerOf_ne_zero p, ?_⟩
  cases p with
  | none => exact .inr (.inl ⟨hnibble, hcommand⟩)
  | eco => exact .inr (.inr (.inr (.inr (.inl ⟨hnibble, hcommand⟩))))
  | sleep => exact .inr (.inr (.inr (.inr (.inr ⟨hnibble, hcommand⟩))))

/-! ## The round trip -/

theorem exists_encodesTo_of_canonical {c : SemanticCommand} (hc : c.Canonical) :
    ∃ F : Frame, EncodesTo c F := by
  obtain ⟨hheat, -, htemp⟩ := hc
  unfold EncodesTo
  cases hm : c.mode with
  | heat => exact absurd hm hheat
  | cool => exact ⟨_, (htemp hm).1, (htemp hm).2, rfl⟩
  | off | auto | fanOnly | dry => exact ⟨_, rfl⟩

/-- The frame of a canonical command stands for an equivalent command, with fan LOW for DRY and OFF
(`40_framecodec.md` R148). -/
theorem exists_decodesTo_of_encodesTo {c : SemanticCommand} {F : Frame} (hc : c.Canonical)
    (hF : EncodesTo c F) :
    ∃ d : DecodedCommand, DecodesTo F d ∧ Equivalent c d ∧
      (c.mode = .dry ∨ c.mode = .off → d.fanSpeed = some .low) := by
  obtain ⟨-, hpreset, -⟩ := hc
  unfold EncodesTo at hF
  cases hm : c.mode <;> simp only [hm] at hF hpreset
  case off =>
    refine ⟨⟨.off, .none, some .low, none⟩, ?_, ?_⟩
    · rw [hF]
      exact .inl ⟨rfl, rfl⟩
    · simp [Equivalent, hm, hpreset, Mode.hasFan]
  case auto =>
    refine ⟨⟨.auto, .none, some c.fanSpeed, none⟩, ?_, ?_⟩
    · rw [hF]
      exact decodesTo_auto_frame _ _
    · simp [Equivalent, hm, hpreset]
  case fanOnly =>
    refine ⟨⟨.fanOnly, .none, some c.fanSpeed, none⟩, ?_, ?_⟩
    · rw [hF]
      exact decodesTo_fanOnly_frame _ _
    · simp [Equivalent, hm, hpreset]
  case dry =>
    refine ⟨⟨.dry, .none, some .low, none⟩, ?_, ?_⟩
    · rw [hF]
      exact decodesTo_dry_frame _
    · simp [Equivalent, hm, hpreset, Mode.hasFan]
  case cool =>
    obtain ⟨hlow, hhigh, rfl⟩ := hF
    refine ⟨⟨.cool, c.preset, some c.fanSpeed, some c.temperature⟩, ?_, ?_⟩
    · exact decodesTo_cool_frame _ _ hlow hhigh
    · simp [Equivalent, hm]

end Sys2Proof.Machine

open Sys2Proof Sys2Proof.Machine

/-- Settles O30: FENC presents the frame the command is laid out as, which passes FDEC's checks and
stands for an equivalent command. -/
theorem frameRoundTripReproducesTheCommand : Obligations.FrameRoundTripReproducesTheCommand := by
  intro s u c hc hcanonical
  obtain ⟨F, hF⟩ := exists_encodesTo_of_canonical hcanonical
  refine ⟨_, F, exec_fenc_of_encodesTo hc hF, rfl, ?_⟩
  rintro rfl
  obtain ⟨d, hd, hequiv, hfan⟩ := exists_decodesTo_of_encodesTo hcanonical hF
  exact ⟨_, d, exec_fdec_of_decodesTo (checksPass_of_encodesTo hF) hd, rfl, hequiv, hfan⟩

end

section
/-! SUPPORT. The frame forms (O52, O53, O54): an instruction whose word is a frame does what FDEC
does with that frame as its operand (log 4). -/

namespace Sys2Proof.Machine

/-! ## The frame of a form and its command in the spec's numbers -/

theorem nibbles_eq_ofNat (hi lo : Nibble) :
    nibbles hi lo = BitVec.ofNat 8 (16 * hi.toNat + lo.toNat) := by
  rw [← nibbles_toNat, BitVec.ofNat_toNat, BitVec.setWidth_eq]

theorem onFields_toFrame_eq (x : OnFields) (n : Nibble) :
    x.toFrame n = ⟨0x19, x.powerState, BitVec.ofNat 8 (16 * x.fanNibble.toNat + n.toNat),
      x.reserved3, x.tempOrMode, x.reserved5, x.reserved6, x.reserved7,
      BitVec.ofNat 8
        ((x.powerState.toNat + (16 * x.fanNibble.toNat + n.toNat) + x.tempOrMode.toNat)
          % 256)⟩ := by
  rw [OnFields.toFrame, csum_eq_ofNat, nibbles_toNat, nibbles_eq_ofNat]
  rfl

theorem offFields_toFrame_eq (x : OffFields) :
    x.toFrame = ⟨0x19, 0x00, x.fanMode, x.reserved3, x.tempOrMode, x.reserved5, x.reserved6,
      x.reserved7, BitVec.ofNat 8 ((x.fanMode.toNat + x.tempOrMode.toNat) % 256)⟩ := by
  have hsum : PWR_OFF.toNat + x.fanMode.toNat = x.fanMode.toNat := Nat.zero_add _
  rw [OffFields.toFrame, csum_eq_ofNat, hsum]
  rfl

theorem fanOfNibble_eq_fanOfNumber (n : Nibble) : fanOfNibble n = fanOfNumber n.toNat := by
  revert n; decide

theorem fanOfByte_eq_fanOfNibble (b : Byte) : fanOfByte b = fanOfNibble (upperNibble b) := by
  revert b; decide

/-! ## A form is FDEC of its frame -/

theorem deliverDecoded_of_fdec_ok {f : Frame} {d : DecodedCommand} (h : fdec f = .ok d)
    (s : State) : deliverDecoded f d s = exec .fdec (presentFrame f s) := by
  rw [exec_fdec_of_fdec_ok (s := presentFrame f s) h]
  rfl

theorem fdec_off_toFrame (x : OffFields) :
    fdec x.toFrame = .ok ⟨.off, .none, fanOfNibble (upperNibble x.fanMode), none⟩ := by
  simp [fdec, OffFields.toFrame, fanOfByte_eq_fanOfNibble]

/-- The frame of another form passes both checks and is not OFF, so its nibble decides. -/
theorem fdec_on_toFrame {x : OnFields} (h : x.wellFormed = true) (n : Nibble) :
    fdec (x.toFrame n) = decodeMode (x.toFrame n) := by
  have hon : x.powerState ≠ PWR_OFF := bne_iff_ne.1 h
  simp [fdec, OnFields.toFrame, hon]

/-- A well-formed frame form does what FDEC does with its word as the frame operand
(`40_framecodec.md` R143, R145). -/
theorem exec_eq_exec_fdec_of_encodeWord {i : Instr} {f : Frame} (hwf : i.wellFormed = true)
    (hw : encodeWord i = .frame72 f) (s : State) :
    exec i s = exec .fdec (presentFrame f s) := by
  cases i with
  | fenc | fdec | penc | pdec | send | recv => cases hw
  | frameOff x =>
    cases hw
    exact deliverDecoded_of_fdec_ok (fdec_off_toFrame x) s
  | frameAuto x | frameCool x | frameDry x | frameFanOnly x | frameEco x | frameSleep x =>
    cases hw
    refine deliverDecoded_of_fdec_ok ?_ s
    rw [fdec_on_toFrame hwf, decodeMode_ok_iff, OnFields.toFrame, lowerNibble_nibbles,
      fanOfByte_eq_fanOfNibble, upperNibble_nibbles]
    simp

theorem decodeMode_of_formOfNibble_error {F : Frame} {x : OnFields} {e : Reject}
    (h : formOfNibble (lowerNibble F.fanMode) x = .error e) :
    e = .unknownModeNibble ∧ decodeMode F = .error .unknownModeNibble := by
  unfold formOfNibble at h
  split_ifs at h with hauto hcool hdry hfan heco hsleep
  cases h
  exact ⟨rfl, by simp [decodeMode, *]⟩

/-- A frame the decoder rejects is one FDEC fails on, and the request ends in that failure
(log 5). -/
theorem rejectRequest_of_decodeFrame_error {F : Frame} {e : Reject} (h : decodeFrame F = .error e)
    (s : State) : .next (rejectRequest e (.frame72 F) s) = exec .fdec (presentFrame F s) := by
  unfold decodeFrame at h
  split_ifs at h with hid hsum hoff
  · cases h
    have hk : fdec F = .error .badDeviceId := by rw [fdec, if_pos hid]
    exact (exec_fdec_of_fdec_error (s := presentFrame F s) hk).symm
  · cases h
    have hk : fdec F = .error .checksumMismatch := fdec_of_checksum_ne (not_not.1 hid) hsum
    exact (exec_fdec_of_fdec_error (s := presentFrame F s) hk).symm
  · obtain ⟨rfl, hmode⟩ := decodeMode_of_formOfNibble_error h
    have hk : fdec F = .error .unknownModeNibble := by
      rw [fdec, if_neg hid, if_neg hsum, if_neg hoff, hmode]
    exact (exec_fdec_of_fdec_error (s := presentFrame F s) hk).symm

end Sys2Proof.Machine

open Sys2Proof Sys2Proof.Machine

/-- Settles O52: the fields of the OFF form in the numbers of the spec. -/
theorem frameOffDeliversOff : Obligations.FrameOffDeliversOff := by
  rintro s x F rfl
  rw [← offFields_toFrame_eq, ← upperNibble_toNat, ← fanOfNibble_eq_fanOfNumber]
  rfl

/-- Settles O53: each form delivers the command of its row, in the numbers of the spec. -/
theorem frameFormsDeliverTheirCommands : Obligations.FrameFormsDeliverTheirCommands := by
  rintro s x i n d F - hform rfl
  rw [← fanOfNibble_eq_fanOfNumber, ← byte2temp_eq] at hform
  obtain ⟨rfl, rfl, rfl⟩ | ⟨rfl, rfl, rfl⟩ | ⟨rfl, rfl, rfl⟩ | ⟨rfl, rfl, rfl⟩ | ⟨rfl, rfl, rfl⟩ |
    ⟨rfl, rfl, rfl⟩ := hform
  · exact congrArg (deliverDecoded · _ s) (onFields_toFrame_eq x NIB_AUTO)
  · exact congrArg (deliverDecoded · _ s) (onFields_toFrame_eq x NIB_COOL)
  · exact congrArg (deliverDecoded · _ s) (onFields_toFrame_eq x NIB_DRY)
  · exact congrArg (deliverDecoded · _ s) (onFields_toFrame_eq x NIB_FAN)
  · exact congrArg (deliverDecoded · _ s) (onFields_toFrame_eq x NIB_ECO)
  · exact congrArg (deliverDecoded · _ s) (onFields_toFrame_eq x NIB_SLEEP)

/-- Settles O54: a frame the decoder reads is served as FDEC of it, and so is one it rejects. -/
theorem framePresentedAloneIsServedAsFdec : Obligations.FramePresentedAloneIsServedAsFdec := by
  intro s F cmd f P rest
  set own : Request := ⟨.frame72 F, cmd, f, P⟩
  have hfdec : step { s with requests := ⟨.op3 1, cmd, F, P⟩ :: rest } =
      exec .fdec (presentFrame F (takeRequest own rest s)) :=
    step_of_decodeWord_ok (r := ⟨.op3 1, cmd, F, P⟩) rfl rfl
  rw [hfdec]
  cases hF : decodeFrame F with
  | ok i =>
    obtain ⟨hw, hwf⟩ := encodeWord_of_decodeFrame hF
    have hown : step { s with requests := own :: rest } = exec i (takeRequest own rest s) :=
      step_of_decodeWord_ok (r := own) rfl hF
    rw [hown, exec_eq_exec_fdec_of_encodeWord hwf hw]
  | error e =>
    have hown : step { s with requests := own :: rest } =
        .next (rejectRequest e (.frame72 F) (takeRequest own rest s)) :=
      step_of_decodeWord_error (r := own) rfl hF
    rw [hown, rejectRequest_of_decodeFrame_error hF]

end

section
/-! SUPPORT. PENC (O31 to O34): the emission, the function PENC and the layout of a frame are one
sequence, known by its index and by its bits. -/

namespace Sys2Proof.Machine

/-! ## The wire order -/

/-- The number of a bit position in wire order (`20_memory.md` R54). -/
def wireIndex (p : Fin 9 × Fin 8) : Nat := 8 * p.1.val + (7 - p.2.val)

theorem wireIndex_lt (p : Fin 9 × Fin 8) : wireIndex p < 72 := by
  unfold wireIndex
  omega

theorem wireIndex_inj {p q : Fin 9 × Fin 8} : wireIndex p = wireIndex q ↔ p = q := by
  simp only [wireIndex, Prod.ext_iff, Fin.ext_iff]
  omega

theorem wireBit_wireIndex (F : Frame) (p : Fin 9 × Fin 8) :
    F.wireBit (wireIndex p) = F.bit p.1 p.2 := F.wireBit_eq_bit p.1 p.2

@[simp] theorem wirePositions_length : wirePositions.length = 72 := rfl

theorem wirePositions_nodup : wirePositions.Nodup := by decide

theorem mem_wirePositions (p : Fin 9 × Fin 8) : p ∈ wirePositions := by
  revert p
  decide

/-- `wirePositions` lists the positions by their number. -/
theorem wirePositions_map_wireIndex : wirePositions.map wireIndex = List.range 72 := by decide

/-- From a position on, the wire order is that position and what follows it. -/
theorem wirePositions_drop_wireIndex (p : Fin 9 × Fin 8) :
    wirePositions.drop (wireIndex p) = p :: wirePositions.drop (wireIndex p + 1) := by
  revert p
  decide

/-! ## One sequence: the function, the layout and the emission -/

/-- Header, the pulses of wire bits 0 to 71, trailing mark. -/
theorem penc_eq_wireBits (F : Frame) :
    penc F = [8000, 4000] ++ (List.range 72).flatMap (fun n => bitPulses (F.wireBit n)) ++ [600] := by
  rw [← wirePositions_map_wireIndex, List.flatMap_map]
  simp only [wireBit_wireIndex]
  rfl

/-- The two loops of the layout run through `wirePositions`. -/
theorem layoutOf_eq_penc (F : Frame) : layoutOf F = penc F := by
  simp only [penc, wirePositions, List.flatMap_assoc, List.flatMap_map]
  rfl

/-- The elements in the order of `20_memory.md` R54: header, a mark and a space per wire bit, trail. -/
theorem range_plen_eq :
    List.range 147 = [0, 1] ++ (List.range 72).flatMap (fun n => [2 + 2 * n, 3 + 2 * n]) ++ [146] := by
  decide

theorem pulseAt_mark (F : Frame) {n : Nat} (hn : n < 72) : pulseAt F (2 + 2 * n) = 600 := by
  have h0 : 2 + 2 * n ≠ 0 := by omega
  have h1 : 2 + 2 * n ≠ 1 := by omega
  have hlast : 2 + 2 * n ≠ PLEN - 1 := by simp only [PLEN]; omega
  have heven : (2 + 2 * n) % 2 = 0 := by omega
  rw [pulseAt, if_neg h0, if_neg h1, if_neg hlast, if_pos heven, T_BIT_MARK]

theorem pulseAt_space (F : Frame) {n : Nat} (hn : n < 72) :
    pulseAt F (3 + 2 * n) = if F.wireBit n then 1600 else 550 := by
  have h0 : 3 + 2 * n ≠ 0 := by omega
  have h1 : 3 + 2 * n ≠ 1 := by omega
  have hlast : 3 + 2 * n ≠ PLEN - 1 := by simp only [PLEN]; omega
  have hodd : ¬(3 + 2 * n) % 2 = 0 := by omega
  have hbit : (3 + 2 * n - 3) / 2 = n := by omega
  rw [pulseAt, if_neg h0, if_neg h1, if_neg hlast, if_neg hodd, hbit, T_ONE_SPACE, T_ZERO_SPACE]

/-- The emission of `10_state.md` R25, element by element, is the sequence of the pseudocode. -/
theorem map_pulseAt_eq_penc (F : Frame) : (List.range 147).map (pulseAt F) = penc F := by
  have hbits : (List.range 72).flatMap (fun n => [2 + 2 * n, 3 + 2 * n].map (pulseAt F)) =
      (List.range 72).flatMap (fun n => bitPulses (F.wireBit n)) := by
    refine List.flatMap_congr fun n hn => ?_
    have hn : n < 72 := List.mem_range.1 hn
    simp only [List.map_cons, List.map_nil, pulseAt_mark F hn, pulseAt_space F hn]
    rfl
  rw [range_plen_eq, List.map_append, List.map_append, List.map_flatMap, hbits, penc_eq_wireBits]
  rfl

theorem penc_getElem? (F : Frame) {k : Nat} (hk : k < 147) : (penc F)[k]? = some (pulseAt F k) := by
  rw [← map_pulseAt_eq_penc, List.getElem?_map, List.getElem?_range hk, Option.map_some]

@[simp] theorem penc_length (F : Frame) : (penc F).length = 147 := by
  rw [← map_pulseAt_eq_penc, List.length_map, List.length_range]

/-- Every element is one of the five constants (`41_pulse_encode.md` R164). -/
theorem pulseAt_mem_constants (F : Frame) (k : Nat) :
    pulseAt F k ∈ [8000, 4000, 600, 1600, 550] := by
  unfold pulseAt
  split_ifs <;> decide

theorem mem_constants_of_mem_penc {F : Frame} {d : Nat} (hd : d ∈ penc F) :
    d ∈ [8000, 4000, 600, 1600, 550] := by
  rw [← map_pulseAt_eq_penc, List.mem_map] at hd
  obtain ⟨k, -, rfl⟩ := hd
  exact pulseAt_mem_constants F k

/-! ## The air time -/

@[simp] theorem bitPulses_sum (b : Bool) : (bitPulses b).sum = if b then 2200 else 1150 := by
  cases b <;> rfl

/-- A bit takes 1150 µs, a one-bit 1050 µs more. -/
theorem flatMap_bitPulses_sum {α : Type} (f : α → Bool) (ps : List α) :
    (ps.flatMap fun p => bitPulses (f p)).sum = 1150 * ps.length + 1050 * (ps.filter f).length := by
  induction ps with
  | nil => rfl
  | cons p ps ih =>
    rw [List.flatMap_cons, List.sum_append, ih, bitPulses_sum, List.length_cons]
    cases hp : f p
    · simp [hp]; omega
    · simp [hp]; omega

/-- `41_pulse_encode.md` R167. -/
theorem penc_sum (F : Frame) : (penc F).sum = 95400 + 1050 * onesOf F := by
  rw [penc, List.sum_append, List.sum_append, flatMap_bitPulses_sum, wirePositions_length, onesOf]
  simp only [List.sum_cons, List.sum_nil, T_HDR_MARK, T_HDR_SPACE, T_TRAIL_MARK]
  omega

theorem onesOf_le (F : Frame) : onesOf F ≤ 72 := List.length_filter_le _ wirePositions

/-! ## The instruction PENC -/

/-- PENC loads its operand, emits its sequence to the end and presents it (`41_pulse_encode.md` R160,
`10_state.md` R23, R25). -/
theorem exec_penc_eq (s : State) :
    exec .penc s = .next { s with
      F := s.frameIn
      emitPos := 147
      emitted := penc s.frameIn
      out := some (.ok (.pulses (penc s.frameIn)))
      busy := false } := by
  rw [← map_pulseAt_eq_penc]
  exact congrArg Host.Outcome.next (pencBuffer_eq (loadFrame s.frameIn s))

theorem pulses_of_exec_penc {s t : State} {P : PulseSequence} (h : exec .penc s = .next t)
    (hP : t.out = some (.ok (.pulses P))) : P = penc s.frameIn := by
  rw [exec_penc_eq] at h
  cases h
  cases hP
  rfl

end Sys2Proof.Machine

open Sys2Proof Sys2Proof.Machine

/-- Settles O31: the layout is the sequence PENC emits. -/
theorem pencEmitsTheLayoutOfItsFrame : Obligations.PencEmitsTheLayoutOfItsFrame := by
  intro s
  rw [layoutOf_eq_penc]
  exact ⟨_, exec_penc_eq s, rfl, rfl, rfl, rfl, rfl, ⟨rfl, rfl, rfl, rfl⟩, rfl, rfl, rfl, rfl⟩

/-- Settles O32: the element map of the emission. -/
theorem pencElementsFollowTheMap : Obligations.PencElementsFollowTheMap := by
  intro s t P ht hP
  obtain rfl := pulses_of_exec_penc ht hP
  refine ⟨penc_length _, rfl, rfl, rfl, fun n hn => ⟨?_, ?_⟩⟩
  · rw [penc_getElem? _ (by omega), pulseAt_mark _ hn]
  · rw [penc_getElem? _ (by omega), pulseAt_space _ hn, Frame.wireBit, List.getD_eq_getElem?_getD]

/-- Settles O33: the five constants, each far below the width of the port. -/
theorem pencEmitsExactConstantsOnly : Obligations.PencEmitsExactConstantsOnly := by
  intro s t P ht hP
  obtain rfl := pulses_of_exec_penc ht hP
  have hfits : ∀ d ∈ [8000, 4000, 600, 1600, 550], fitsDuration Config.durW d = true := by decide
  refine ⟨fun d hd => by simpa using mem_constants_of_mem_penc hd, List.all_eq_true.2 fun d hd => ?_⟩
  exact hfits d (mem_constants_of_mem_penc hd)

/-- Settles O34: a one-bit adds 1050 µs, and at most 72 bits are one. -/
theorem pencTotalDurationCountsTheOnes : Obligations.PencTotalDurationCountsTheOnes := by
  refine ⟨fun s t P ht hP => ?_, by decide, by decide⟩
  obtain rfl := pulses_of_exec_penc ht hP
  have hsum := penc_sum s.frameIn
  have hones := onesOf_le s.frameIn
  exact ⟨hsum, by omega, by omega⟩

end

section
/-! SUPPORT. PDEC after PENC (O45): the function PDEC reads back what PENC wrote, and the scan machine
answers what the function PDEC answers. -/

namespace Sys2Proof.Machine

/-! ## The function PDEC inverts the function PENC -/

/-- At a legal tolerance a zero space is not in the window of a one space (`42_pulse_decode.md`
R177). -/
theorem matchDur_zero_space_one {tol : Nat} (htol : tol ≤ 48) :
    matchDur tol T_ZERO_SPACE T_ONE_SPACE = false := by
  rw [Bool.eq_false_iff, ne_eq, matchDur_iff]
  simp only [T_ZERO_SPACE, T_ONE_SPACE]
  omega

/-- The function writes a one into its position and leaves the frame at a zero. -/
theorem pdecBits_bitPulses {tol : Nat} (htol : tol ≤ 48) (p : Fin 9 × Fin 8)
    (ps : List (Fin 9 × Fin 8)) (b : Bool) (rest : PulseSequence) (G : Frame) :
    pdecBits tol (p :: ps) (bitPulses b ++ rest) G =
      pdecBits tol ps rest (if b then G.setBit p.1 p.2 true else G) := by
  cases b with
  | true => simp [bitPulses, pdecBits, Frame.setBit, writeBit]
  | false => simp [bitPulses, pdecBits, matchDur_zero_space_one htol]

/-- `G` is `F` as far as the positions `ps` are still to be filled. -/
def FilledExcept (ps : List (Fin 9 × Fin 8)) (F G : Frame) : Prop :=
  ∀ p : Fin 9 × Fin 8, G.bit p.1 p.2 = if p ∈ ps then false else F.bit p.1 p.2

theorem filledExcept_zero (F : Frame) : FilledExcept wirePositions F Frame.zero := by
  intro p
  rw [if_pos (mem_wirePositions p)]
  obtain ⟨i, j⟩ := p
  fin_cases i <;> exact BitVec.getLsbD_zero

theorem eq_of_filledExcept_nil {F G : Frame} (h : FilledExcept [] F G) : G = F :=
  Frame.ext_bit fun i j => h (i, j)

theorem filledExcept_tail {p : Fin 9 × Fin 8} {ps : List (Fin 9 × Fin 8)} {F G : Frame}
    (hp : p ∉ ps) (h : FilledExcept (p :: ps) F G) :
    FilledExcept ps F (if F.bit p.1 p.2 then G.setBit p.1 p.2 true else G) := by
  intro q
  have hq := h q
  by_cases hqp : q = p
  · subst hqp
    cases hb : F.bit q.1 q.2
    · simpa [hp, hb] using hq
    · simp [hp, Frame.bit_setBit]
  · have hne : ¬(q.1 = p.1 ∧ q.2 = p.2) := fun e => hqp (Prod.ext e.1 e.2)
    cases hb : F.bit p.1 p.2
    · simpa [hqp] using hq
    · simpa [hqp, Frame.bit_setBit, hne] using hq

/-- Reading the pulses of the bits of `F` fills the positions with the bits of `F`. -/
theorem pdecBits_flatMap_bitPulses {tol : Nat} (htol : tol ≤ 48) (F : Frame) (rest : PulseSequence)
    (ps : List (Fin 9 × Fin 8)) (hps : ps.Nodup) (G : Frame) (hG : FilledExcept ps F G) :
    pdecBits tol ps (ps.flatMap (fun p => bitPulses (F.bit p.1 p.2)) ++ rest) G = .ok F := by
  induction ps generalizing G with
  | nil => rw [eq_of_filledExcept_nil hG, pdecBits]
  | cons p ps ih =>
    obtain ⟨hp, hps⟩ := List.nodup_cons.1 hps
    rw [List.flatMap_cons, List.append_assoc, pdecBits_bitPulses htol]
    exact ih hps _ (filledExcept_tail hp hG)

/-- `41_pulse_encode.md` R168, for the functions. -/
theorem pdec_penc {tol : Nat} (htol : tol ≤ 48) (F : Frame) : pdec tol (penc F) = .ok F := by
  have hbits := pdecBits_flatMap_bitPulses htol F [T_TRAIL_MARK] wirePositions wirePositions_nodup
    Frame.zero (filledExcept_zero F)
  simpa [pdec, penc] using hbits

/-! ## The scan machine answers what the function PDEC answers -/

/-- The scan has ended with this answer (`42_pulse_decode.md` R184). -/
def Scan.Answers (sc : Scan) : Except Failure Frame → Prop
  | .ok F => sc.phase = .done ∧ sc.failure = none ∧ sc.F = F
  | .error k => sc.phase = .failed ∧ sc.failure = some k

theorem Scan.Answers.ended {sc : Scan} {r : Except Failure Frame} (h : sc.Answers r) :
    sc.phase = .done ∨ sc.phase = .failed := by
  cases r with
  | ok F => exact .inl h.1
  | error k => exact .inr h.1

/-- An answer stands however long the machine runs on. -/
theorem Scan.Answers.scanRun {sc : Scan} {r : Except Failure Frame} (h : sc.Answers r) (tol : Nat)
    (P : PulseSequence) (n : Nat) : (scanRun tol P n sc).Answers r := by
  rwa [scanRun_of_ended tol P n h.ended]

theorem scanFail_answers (k : Failure) (sc : Scan) : (scanFail k sc).Answers (.error k) :=
  ⟨rfl, rfl⟩

/-- The number of the bit the scan reads next (`42_pulse_decode.md` R179). -/
def Scan.bitNumber (sc : Scan) : Nat := wireIndex (sc.byteIndex, sc.bitIndex)

/-- After the last bit the scan is done; after another, the next bit's turn has come
(`42_pulse_decode.md` R183). -/
theorem scanAdvance_cases (sc : Scan) :
    (sc.bitNumber = 71 ∧ scanAdvance sc = { sc with phase := .done }) ∨
    ∃ (i : Fin 9) (j : Fin 8), wireIndex (i, j) = sc.bitNumber + 1 ∧
      scanAdvance sc = { sc with byteIndex := i, bitIndex := j } := by
  unfold scanAdvance Scan.bitNumber wireIndex
  split_ifs with hbit hbyte
  · exact .inr ⟨sc.byteIndex, sc.bitIndex - 1, by simp only; omega, rfl⟩
  · exact .inr ⟨sc.byteIndex + 1, 7, by simp only; omega, rfl⟩
  · exact .inl ⟨by simp only; omega, rfl⟩

/-- A scan that expects bits: no failure, and the bits it has not read are 0 in the buffer. -/
structure Scan.Reading (sc : Scan) : Prop where
  phase : sc.phase = .expectBit
  failure : sc.failure = none
  clear : ∀ p : Fin 9 × Fin 8, sc.bitNumber ≤ wireIndex p → sc.F.bit p.1 p.2 = false

/-- What the function PDEC answers from where the scan stands. -/
def Scan.rest (tol : Nat) (P : PulseSequence) (sc : Scan) : Except Failure Frame :=
  pdecBits tol (wirePositions.drop sc.bitNumber) (P.drop sc.pos) sc.F

theorem setBit_false_of_clear {G : Frame} {p : Fin 9 × Fin 8} (h : G.bit p.1 p.2 = false) :
    G.setBit p.1 p.2 false = G := by
  refine Frame.ext_bit fun i j => ?_
  rw [Frame.bit_setBit]
  split_ifs with hij
  · rw [hij.1, hij.2, h]
  · rfl

/-- A bit read: the scan has ended with its frame, or stands at the next bit. -/
theorem scanBit_reading {sc : Scan} (h : sc.Reading) (tol : Nat) (P : PulseSequence) (b : Bool)
    {r : Except Failure Frame}
    (hr : pdecBits tol (wirePositions.drop (sc.bitNumber + 1)) (P.drop sc.pos)
      (sc.F.setBit sc.byteIndex sc.bitIndex b) = r) :
    (scanBit b sc).Answers r ∨
      (scanBit b sc).Reading ∧ (scanBit b sc).bitNumber = sc.bitNumber + 1 ∧
        (scanBit b sc).rest tol P = r := by
  subst hr
  set G := sc.F.setBit sc.byteIndex sc.bitIndex b
  have hadvance := scanAdvance_cases { sc with F := G }
  obtain ⟨hlast, e⟩ | ⟨i, j, hnext, e⟩ := hadvance
  · have hlast : sc.bitNumber = 71 := hlast
    rw [scanBit, e, hlast]
    exact .inl ⟨rfl, h.failure, rfl⟩
  · have hnext : wireIndex (i, j) = sc.bitNumber + 1 := hnext
    have hclear : ∀ p : Fin 9 × Fin 8, wireIndex (i, j) ≤ wireIndex p → G.bit p.1 p.2 = false := by
      intro p hp
      have hne : ¬(p.1 = sc.byteIndex ∧ p.2 = sc.bitIndex) := by
        intro e
        have e : wireIndex p = sc.bitNumber := wireIndex_inj.2 (Prod.ext e.1 e.2)
        omega
      rw [Frame.bit_setBit, if_neg hne]
      exact h.clear p (by omega)
    rw [scanBit, e]
    refine .inr ⟨⟨h.phase, h.failure, hclear⟩, hnext, ?_⟩
    rw [← hnext]
    rfl

/-- A pair judged by the machine is judged as by the function (`42_pulse_decode.md` R178, R181). -/
theorem scanPair_reading {sc : Scan} (h : sc.Reading) (tol : Nat) (P : PulseSequence) (m sp : Nat)
    {r : Except Failure Frame}
    (hr : pdecBits tol (wirePositions.drop sc.bitNumber) (m :: sp :: P.drop sc.pos) sc.F = r) :
    (scanPair tol m sp sc).Answers r ∨
      (scanPair tol m sp sc).Reading ∧ (scanPair tol m sp sc).bitNumber = sc.bitNumber + 1 ∧
        (scanPair tol m sp sc).rest tol P = r := by
  have hclear : sc.F.setBit sc.byteIndex sc.bitIndex false = sc.F :=
    setBit_false_of_clear (h.clear (sc.byteIndex, sc.bitIndex) le_rfl)
  have hdrop : wirePositions.drop sc.bitNumber = _ :: wirePositions.drop (sc.bitNumber + 1) :=
    wirePositions_drop_wireIndex (sc.byteIndex, sc.bitIndex)
  rw [hdrop, pdecBits] at hr
  unfold scanPair
  split_ifs at hr ⊢ with hmark hone hzero
  · subst hr
    exact .inl (scanFail_answers _ sc)
  · exact scanBit_reading h tol P true hr
  · exact scanBit_reading h tol P false (by rwa [hclear])
  · subst hr
    exact .inl (scanFail_answers _ sc)

theorem drop_eq_pair {P : PulseSequence} {k m sp : Nat} (hm : P[k]? = some m)
    (hsp : P[k + 1]? = some sp) : P.drop k = m :: sp :: P.drop (k + 2) := by
  obtain ⟨hk, rfl⟩ := List.getElem?_eq_some_iff.1 hm
  obtain ⟨hk', rfl⟩ := List.getElem?_eq_some_iff.1 hsp
  rw [List.drop_eq_getElem_cons hk, List.drop_eq_getElem_cons hk']

theorem pdecBits_of_short (tol : Nat) (p : Fin 9 × Fin 8) (ps : List (Fin 9 × Fin 8))
    {Q : PulseSequence} (hQ : Q.length < 2) (G : Frame) :
    pdecBits tol (p :: ps) Q G = .error .truncatedFrame := by
  match Q, hQ with
  | [], _ => rfl
  | [_], _ => rfl

/-- A step of a scan that expects a bit ends with the function's answer, or leads to the next bit and
leaves that answer as it is. -/
theorem scanStep_reading {sc : Scan} (h : sc.Reading) (tol : Nat) (P : PulseSequence) :
    (scanStep tol P sc).Answers (sc.rest tol P) ∨
      (scanStep tol P sc).Reading ∧ (scanStep tol P sc).bitNumber = sc.bitNumber + 1 ∧
        (scanStep tol P sc).rest tol P = sc.rest tol P := by
  have hphase := h.phase
  obtain ⟨hended, -⟩ | ⟨-, hlen, e⟩ | ⟨m, sp, hm, hsp, ⟨hheader, -⟩ | ⟨-, e⟩⟩ :=
    scanStep_cases tol P sc
  · simp [hphase] at hended
  · have hshort : (P.drop sc.pos).length < 2 := by rw [List.length_drop]; omega
    have hrest : sc.rest tol P = .error .truncatedFrame := by
      rw [Scan.rest, Scan.bitNumber, wirePositions_drop_wireIndex, pdecBits_of_short tol _ _ hshort]
    rw [e, hrest]
    exact .inl (scanFail_answers _ sc)
  · simp [hphase] at hheader
  · have hmoved : ({ sc with pos := sc.pos + 2 } : Scan).Reading := ⟨hphase, h.failure, h.clear⟩
    rw [e, Scan.rest, drop_eq_pair hm hsp]
    exact scanPair_reading hmoved tol P m sp rfl

theorem scanRun_reading_answers (tol : Nat) (P : PulseSequence) (n : Nat) {sc : Scan}
    (h : sc.Reading) (hn : 72 ≤ sc.bitNumber + n) :
    (scanRun tol P n sc).Answers (sc.rest tol P) := by
  induction n generalizing sc with
  | zero => exact absurd (wireIndex_lt (sc.byteIndex, sc.bitIndex)) (Nat.not_lt.2 hn)
  | succ n ih =>
    rw [scanRun]
    obtain hend | ⟨hnext, hnumber, hrest⟩ := scanStep_reading h tol P
    · exact hend.scanRun tol P n
    · rw [← hrest]
      exact ih hnext (by omega)

/-- The header read: the scan expects bit 0 of a clear buffer. -/
theorem scanStart_reading : ({ scanStart with pos := 2, phase := .expectBit } : Scan).Reading where
  phase := rfl
  failure := rfl
  clear p _ := by
    have hzero := filledExcept_zero Frame.zero p
    rwa [if_pos (mem_wirePositions p)] at hzero

/-- The machine of `42_pulse_decode.md` R179 to R185 answers what the function of R178 does, at every
tolerance and on every sequence (R190). -/
theorem scanAll_answers_pdec (tol : Nat) (P : PulseSequence) : (scanAll tol P).Answers (pdec tol P) := by
  show (scanRun tol P 72 (scanStep tol P scanStart)).Answers (pdec tol P)
  match P with
  | [] => exact (scanFail_answers .truncatedFrame scanStart).scanRun tol _ 72
  | [_] => exact (scanFail_answers .truncatedFrame scanStart).scanRun tol _ 72
  | m :: sp :: rest =>
    show (scanRun tol _ 72 (scanHeader tol m sp { scanStart with pos := 2 })).Answers _
    by_cases hheader : matchDur tol m T_HDR_MARK = false ∨ matchDur tol sp T_HDR_SPACE = false
    · rw [pdec, if_pos hheader, scanHeader, if_neg (by simpa [imp_iff_not_or] using hheader)]
      exact (scanFail_answers .headerMismatch _).scanRun tol _ 72
    · rw [pdec, if_neg hheader, scanHeader, if_pos (by simpa using hheader)]
      exact scanRun_reading_answers tol (m :: sp :: rest) 72 scanStart_reading (by decide)

/-- PDEC delivers the frame the function answers, in the build of any tolerance. -/
theorem execPdecIn_of_pdec_ok {p : Params} {s : State} {F : Frame}
    (h : pdec p.tolPct s.pulsesIn = .ok F) :
    execPdecIn p s = .next (deliver (.frame F) (writeScan (scanAll p.tolPct s.pulsesIn) s)) := by
  have hscan := scanAll_answers_pdec p.tolPct s.pulsesIn
  rw [h] at hscan
  obtain ⟨-, hfailure, rfl⟩ := hscan
  rw [execPdecIn, pdecEnd, hfailure]

end Sys2Proof.Machine

open Sys2Proof Sys2Proof.Machine

/-- Settles O45: the function reads back what it wrote, and the instructions run these functions. -/
theorem pdecInvertsPenc : Obligations.PdecInvertsPenc := by
  refine ⟨fun tol F htol => pdec_penc htol F, fun s u => ⟨_, _, exec_penc_eq s, rfl, fun hu => ?_⟩⟩
  have hpdec : pdec Config.params.tolPct u.pulsesIn = .ok s.frameIn := by
    rw [hu]
    exact pdec_penc (by decide) s.frameIn
  exact ⟨_, execPdecIn_of_pdec_ok hpdec, rfl⟩

end

section
/-! SUPPORT. The tolerance windows (O35, O36). -/

open Sys2Proof Sys2Proof.Machine

/-- Settles O35: the window of MATCH at each of the five nominal durations. -/
theorem windowsAtTwentyFivePerCent : Obligations.WindowsAtTwentyFivePerCent := by
  intro d
  simp only [matchDur_iff]
  omega

/-- Settles O36: from TOL_PCT = 49 on, 816 is in both space windows. -/
theorem spaceWindowsAreDisjointUpToFortyEight :
    Obligations.SpaceWindowsAreDisjointUpToFortyEight := by
  refine ⟨fun tol => ⟨fun hdisjoint => ?_, fun htol d => ?_⟩, by decide, fun d nom => ?_⟩
  · have h816 := hdisjoint 816
    simp only [matchDur_iff] at h816
    omega
  · simp only [matchDur_iff]
    omega
  · rw [matchDur_iff]
    omega

end

section
/-! SUPPORT. The registers of the scan (O37, O38, O39, O44): how they fit together at every step, and
that the scan reads no element past the last bit. -/

namespace Sys2Proof.Machine

/-! ## The registers fit together -/

/-- The scan's registers, written into the state, meet the invariant's clause about them. -/
def Scan.Coherent (sc : Scan) : Prop := ScanCoherent (writeScan sc State.reset)

theorem scanCoherent_writeScan (sc : Scan) (s : State) :
    ScanCoherent (writeScan sc s) ↔ sc.Coherent := Iff.rfl

theorem coherent_of_expectHeader {sc : Scan} (hp : sc.phase = .expectHeader) :
    sc.Coherent ↔ sc.byteIndex = 0 ∧ sc.bitIndex = 7 ∧ sc.pos = 0 := by
  simp [Scan.Coherent, ScanCoherent, hp]

theorem coherent_of_expectBit {sc : Scan} (hp : sc.phase = .expectBit) :
    sc.Coherent ↔ sc.pos = 2 + 2 * sc.bitNumber := by
  simp [Scan.Coherent, ScanCoherent, hp, Scan.bitNumber, wireIndex]

theorem coherent_of_done {sc : Scan} (hp : sc.phase = .done) :
    sc.Coherent ↔ sc.byteIndex = 8 ∧ sc.bitIndex = 0 ∧ sc.pos = 146 := by
  simp [Scan.Coherent, ScanCoherent, hp]

theorem coherent_scanFail (k : Failure) (sc : Scan) :
    (scanFail k sc).Coherent ↔
      sc.pos = 0 ∨ sc.pos = 2 + 2 * sc.bitNumber ∨ sc.pos = 4 + 2 * sc.bitNumber := Iff.rfl

theorem scanStart_coherent : scanStart.Coherent := ⟨rfl, rfl, rfl⟩

theorem scanHeader_coherent {sc : Scan} (hnumber : sc.bitNumber = 0) (hpos : sc.pos = 2)
    (tol m sp : Nat) : (scanHeader tol m sp sc).Coherent := by
  have hfits : sc.pos = 2 + 2 * sc.bitNumber := by rw [hpos, hnumber]
  unfold scanHeader
  split_ifs
  · exact (coherent_of_expectBit rfl).2 hfits
  · exact (coherent_scanFail _ sc).2 (.inr (.inl hfits))

theorem scanAdvance_coherent {sc : Scan} (hphase : sc.phase = .expectBit)
    (hpos : sc.pos = 4 + 2 * sc.bitNumber) : (scanAdvance sc).Coherent := by
  obtain ⟨hlast, e⟩ | ⟨i, j, hnext, e⟩ := scanAdvance_cases sc
  · have hregisters : (sc.byteIndex, sc.bitIndex) = (8, 0) := wireIndex_inj.1 hlast
    obtain ⟨hbyte, hbit⟩ := Prod.mk.inj hregisters
    rw [e, coherent_of_done rfl]
    exact ⟨hbyte, hbit, by rw [hpos, hlast]⟩
  · rw [e]
    refine (coherent_of_expectBit (sc := { sc with byteIndex := i, bitIndex := j }) hphase).2 ?_
    show sc.pos = 2 + 2 * wireIndex (i, j)
    omega

/-- A pair consumed: bit 71 ends the scan at 146, an earlier bit leads to the next pair, and a pair
that is no bit leaves the position behind it (`42_pulse_decode.md` R181, R183). -/
theorem scanPair_coherent {sc : Scan} (hphase : sc.phase = .expectBit)
    (hpos : sc.pos = 4 + 2 * sc.bitNumber) (tol m sp : Nat) : (scanPair tol m sp sc).Coherent := by
  unfold scanPair
  split_ifs
  · exact (coherent_scanFail _ sc).2 (.inr (.inr hpos))
  · exact scanAdvance_coherent hphase hpos
  · exact scanAdvance_coherent hphase hpos
  · exact (coherent_scanFail _ sc).2 (.inr (.inr hpos))

theorem scanStep_coherent {sc : Scan} (h : sc.Coherent) (tol : Nat) (P : PulseSequence) :
    (scanStep tol P sc).Coherent := by
  obtain ⟨-, e⟩ | ⟨hp | hp, -, e⟩ | ⟨m, sp, -, -, ⟨hp, e⟩ | ⟨hp, e⟩⟩ := scanStep_cases tol P sc
  · rwa [e]
  · obtain ⟨-, -, hpos⟩ := (coherent_of_expectHeader hp).1 h
    rw [e, coherent_scanFail]
    exact .inl hpos
  · rw [e, coherent_scanFail]
    exact .inr (.inl ((coherent_of_expectBit hp).1 h))
  · obtain ⟨hbyte, hbit, hpos⟩ := (coherent_of_expectHeader hp).1 h
    rw [e]
    refine scanHeader_coherent ?_ ?_ tol m sp
    · simp [Scan.bitNumber, wireIndex, hbyte, hbit]
    · simp [hpos]
  · have hpos := (coherent_of_expectBit hp).1 h
    have hmoved : sc.pos + 2 = 4 + 2 * sc.bitNumber := by omega
    rw [e]
    exact scanPair_coherent (sc := { sc with pos := sc.pos + 2 }) hp hmoved tol m sp

theorem scanRun_coherent {sc : Scan} (h : sc.Coherent) (tol n : Nat) (P : PulseSequence) :
    (scanRun tol P n sc).Coherent := by
  induction n generalizing sc with
  | zero => exact h
  | succ n ih => exact ih (scanStep_coherent h tol P)

theorem scanAll_coherent (tol : Nat) (P : PulseSequence) : (scanAll tol P).Coherent :=
  scanRun_coherent scanStart_coherent tol _ P

/-! ## One bit per step -/

/-- The header fails, or leads to bit 0 (`42_pulse_decode.md` R180). -/
theorem scanStep_scanStart (tol : Nat) (P : PulseSequence) :
    (scanStep tol P scanStart).phase = .failed ∨
      scanStep tol P scanStart = { scanStart with pos := 2, phase := .expectBit } := by
  obtain ⟨⟨⟨⟩⟩ | ⟨⟨⟩⟩, -⟩ | ⟨-, -, e⟩ | ⟨m, sp, -, -, ⟨-, e⟩ | ⟨⟨⟩, -⟩⟩ := scanStep_cases tol P scanStart
  · rw [e]
    exact .inl rfl
  · rw [e, scanHeader]
    split_ifs
    · exact .inr rfl
    · exact .inl rfl

/-- While the scan goes on, each step reads one bit. -/
theorem scanRun_reading {sc : Scan} (h : sc.Reading) (tol n : Nat) (P : PulseSequence) :
    (scanRun tol P n sc).Answers (sc.rest tol P) ∨
      (scanRun tol P n sc).Reading ∧ (scanRun tol P n sc).bitNumber = sc.bitNumber + n := by
  induction n generalizing sc with
  | zero => exact .inr ⟨h, rfl⟩
  | succ n ih =>
    rw [scanRun]
    obtain hend | ⟨hnext, hnumber, hrest⟩ := scanStep_reading h tol P
    · exact .inl (hend.scanRun tol P n)
    · rw [← hrest, Nat.add_comm n 1, ← Nat.add_assoc, ← hnumber]
      exact ih hnext

/-- A scan that still expects a bit after the header and `n` steps has read `n` bits. -/
theorem bitNumber_of_expectBit {tol n : Nat} {P : PulseSequence}
    (hp : (scanRun tol P (n + 1) scanStart).phase = .expectBit) :
    (scanRun tol P (n + 1) scanStart).bitNumber = n := by
  rw [scanRun] at hp ⊢
  obtain hfailed | e := scanStep_scanStart tol P
  · rw [scanRun_of_ended tol P n (.inr hfailed), hfailed] at hp
    cases hp
  · rw [e] at hp ⊢
    obtain hend | ⟨-, hnumber⟩ := scanRun_reading scanStart_reading tol n P
    · rcases hend.ended with hended | hended <;> cases hended.symm.trans hp
    · rw [hnumber]
      exact Nat.zero_add n

/-! ## The elements the scan reads -/

/-- A pair the scan asks for lies below element 146 (`42_pulse_decode.md` R187). -/
theorem pos_lt_of_coherent {sc : Scan} (h : sc.Coherent)
    (hp : sc.phase = .expectHeader ∨ sc.phase = .expectBit) : sc.pos + 1 < 146 := by
  rcases hp with hp | hp
  · obtain ⟨-, -, hpos⟩ := (coherent_of_expectHeader hp).1 h
    omega
  · have hpos := (coherent_of_expectBit hp).1 h
    have hnumber : sc.bitNumber < 72 := wireIndex_lt _
    omega

theorem scanStep_take {sc : Scan} (h : sc.Coherent) (tol : Nat) (P : PulseSequence) :
    scanStep tol (P.take 146) sc = scanStep tol P sc := by
  cases hp : sc.phase with
  | done | failed => simp [scanStep, hp]
  | expectHeader | expectBit =>
    have hpos : sc.pos + 1 < 146 := pos_lt_of_coherent h (by simp [hp])
    simp only [scanStep, hp, List.getElem?_take_of_lt hpos,
      List.getElem?_take_of_lt (Nat.lt_of_succ_lt hpos)]

theorem scanRun_take {sc : Scan} (h : sc.Coherent) (tol n : Nat) (P : PulseSequence) :
    scanRun tol (P.take 146) n sc = scanRun tol P n sc := by
  induction n generalizing sc with
  | zero => rfl
  | succ n ih => rw [scanRun, scanRun, scanStep_take h, ih (scanStep_coherent h tol P)]

theorem scanAll_take (tol : Nat) (P : PulseSequence) :
    scanAll tol (P.take 146) = scanAll tol P :=
  scanRun_take scanStart_coherent tol _ P

end Sys2Proof.Machine

open Sys2Proof Sys2Proof.Machine

/-- Settles O37: the machine ends with the function's answer, and with one answer only. -/
theorem scanMachineAgreesWithTheFunction : Obligations.ScanMachineAgreesWithTheFunction := by
  intro tol P
  have hscan := scanAll_answers_pdec tol P
  cases hpdec : pdec tol P with
  | ok G =>
    rw [hpdec] at hscan
    obtain ⟨hphase, -, rfl⟩ := hscan
    simp [hphase]
  | error k =>
    rw [hpdec] at hscan
    obtain ⟨hphase, hfailure⟩ := hscan
    simp [hphase, hfailure]

/-- Settles O38: the scan has ended after 73 steps, and an ended scan stays as it is. -/
theorem scanEndsWithinSeventyThreeSteps : Obligations.ScanEndsWithinSeventyThreeSteps := by
  intro tol n P
  have hended := (scanAll_answers_pdec tol P).ended
  exact ⟨hended, (scanRun_add tol P 73 n scanStart).trans (scanRun_of_ended tol P n hended)⟩

/-- Settles O39: the registers hold the number of the next bit, and the position fits it. -/
theorem scanRegistersCountTheBits : Obligations.ScanRegistersCountTheBits := by
  intro tol n P hp
  have hnumber := bitNumber_of_expectBit hp
  have hpos := (coherent_of_expectBit hp).1 (scanRun_coherent scanStart_coherent tol (n + 1) P)
  rw [hnumber] at hpos
  simp only [Scan.bitNumber, wireIndex] at hnumber
  omega

/-- Settles O44: both scans are one, and PDEC writes and presents what its scan holds. -/
theorem pdecIgnoresTheElementsAfterTheLastBit :
    Obligations.PdecIgnoresTheElementsAfterTheLastBit := by
  intro s u _ hu
  set sc := scanAll Config.tolPct s.pulsesIn
  have hexec : exec .pdec u = .next (pdecEnd sc u) := by
    show Host.Outcome.next (pdecEnd (scanAll Config.tolPct u.pulsesIn) u) = _
    rw [hu, scanAll_take]
  refine ⟨pdecEnd sc s, pdecEnd sc u, rfl, hexec, pdecEnd_out_congr sc s u, ?_⟩
  obtain ⟨o, hs⟩ := endsFrom_pdecEnd sc s
  obtain ⟨o', hu'⟩ := endsFrom_pdecEnd sc u
  simp [hs, hu']

end

section
/-! SUPPORT. Every step keeps the invariant (O3): each clause of it after an instruction, from what
the instruction has written (O55) and what it presents. -/

namespace Sys2Proof.Machine

/-! ## The scan registers and the emission -/

theorem scanCoherent_of_sameScan {s t : State} (h : SameScan s t) (hs : ScanCoherent s) :
    ScanCoherent t := by
  obtain ⟨hphase, hbyte, hbit, hpos⟩ := h
  simpa only [ScanCoherent, hphase, hbyte, hbit, hpos] using hs

theorem scanCoherent_of_exec {i : Instr} {s t : State} (h : exec i s = .next t)
    (hs : ScanCoherent s) : ScanCoherent t := by
  by_cases hpdec : i = .pdec
  · subst hpdec
    obtain ⟨o, rfl⟩ := endsFrom_of_exec_pdec h
    exact (scanCoherent_writeScan _ s).2 (scanAll_coherent Config.tolPct s.pulsesIn)
  by_cases hrecv : i = .recv
  · subst hrecv
    obtain ⟨o, rfl⟩ := endsFrom_of_exec_recv h
    exact (scanCoherent_writeScan _ s).2 (scanAll_coherent Config.tolPct s.pulsesIn)
  obtain ⟨-, -, -, -, -, hscan, -⟩ := instructionsChangeOnlyTheirOwnRegisters i s t h
  exact scanCoherent_of_sameScan (hscan hpdec hrecv) hs

theorem emissionCoherent_of_sameEmission {s t : State} (h : SameEmission s t)
    (hs : EmissionCoherent s) : EmissionCoherent t := by
  obtain ⟨hpos, hemitted⟩ := h
  simpa only [EmissionCoherent, hpos, hemitted] using hs

theorem pencBuffer_emissionCoherent (s : State) : EmissionCoherent (pencBuffer s) := by
  rw [pencBuffer_eq, map_pulseAt_eq_penc]
  exact .inr ⟨rfl, s.F, rfl⟩

theorem emissionCoherent_of_exec {i : Instr} {s t : State} (h : exec i s = .next t)
    (hs : EmissionCoherent s) : EmissionCoherent t := by
  by_cases hpenc : i = .penc
  · subst hpenc
    cases h
    exact pencBuffer_emissionCoherent _
  by_cases hsend : i = .send
  · subst hsend
    obtain ⟨o, rfl⟩ | ⟨f, rfl⟩ := exec_send_cases h
    · exact hs
    · exact pencBuffer_emissionCoherent _
  obtain ⟨-, -, -, -, -, -, hemission, -⟩ := instructionsChangeOnlyTheirOwnRegisters i s t h
  exact emissionCoherent_of_sameEmission (hemission hpenc hsend) hs

/-! ## The result presented -/

/-- A command a frame stands for is legal (`30_encoding.md` R93; `40_framecodec.md` R145, R146). -/
theorem legal_of_decodesTo {F : Frame} {d : DecodedCommand} (h : DecodesTo F d) : d.Legal := by
  have hbyte := F.tempOrMode.isLt
  obtain ⟨-, rfl⟩ | ⟨-, ⟨-, rfl⟩ | ⟨-, rfl⟩ | ⟨-, rfl⟩ | ⟨-, rfl⟩ | ⟨-, rfl⟩ | ⟨-, rfl⟩⟩ := h
  all_goals simp [DecodedCommand.Legal] <;> omega

theorem fdecBuffer_outputLegal (s : State) : OutputLegal (fdecBuffer s).out := by
  unfold fdecBuffer
  cases hd : fdec s.F with
  | ok d => exact legal_of_decodesTo ((fdec_ok_iff_decodesTo s.F d).1 hd).2
  | error k => trivial

theorem pencBuffer_outputLegal (s : State) : OutputLegal (pencBuffer s).out := by
  rw [pencBuffer_eq, map_pulseAt_eq_penc]
  exact ⟨s.F, rfl⟩

theorem pdecEnd_outputLegal (sc : Scan) (s : State) : OutputLegal (pdecEnd sc s).out := by
  unfold pdecEnd
  split <;> trivial

theorem recvEnd_outputLegal (sc : Scan) (s : State) : OutputLegal (recvEnd sc s).out := by
  unfold recvEnd
  split
  · exact fdecBuffer_outputLegal _
  · trivial

theorem fencOn_outputLegal (c : SemanticCommand) (s : State) : OutputLegal (fencOn c s).out := by
  unfold fencOn
  split <;> trivial

theorem sendOn_outputLegal (c : SemanticCommand) (s : State) : OutputLegal (sendOn c s).out := by
  unfold sendOn
  split
  · exact pencBuffer_outputLegal _
  · trivial

/-- A frame form presents what FDEC of its frame does, so it needs no case of its own. -/
theorem outputLegal_of_exec {i : Instr} {s t : State} (hwf : i.wellFormed = true)
    (h : exec i s = .next t) : OutputLegal t.out := by
  cases i with
  | fenc =>
    simp only [exec, execFenc] at h
    split at h <;> cases h
    · exact fencOn_outputLegal _ s
    · trivial
  | send =>
    simp only [exec, execSend] at h
    split at h <;> cases h
    · exact sendOn_outputLegal _ s
    · trivial
  | fdec =>
    cases h
    exact fdecBuffer_outputLegal _
  | penc =>
    cases h
    exact pencBuffer_outputLegal _
  | pdec =>
    cases h
    exact pdecEnd_outputLegal _ s
  | recv =>
    cases h
    exact recvEnd_outputLegal _ s
  | frameOff | frameAuto | frameCool | frameDry | frameFanOnly | frameEco | frameSleep =>
    rw [exec_eq_exec_fdec_of_encodeWord hwf rfl] at h
    cases h
    exact fdecBuffer_outputLegal _

/-! ## The invariant -/

theorem inv_of_exec {i : Instr} {s t : State} (hwf : i.wellFormed = true)
    (hscan : ScanCoherent s) (hemission : EmissionCoherent s) (h : exec i s = .next t) : t.Inv := by
  obtain ⟨-, -, -, -, -, -, -, -, -, hbusy⟩ := instructionsChangeOnlyTheirOwnRegisters i s t h
  exact ⟨hbusy, scanCoherent_of_exec h hscan, emissionCoherent_of_exec h hemission,
    outputLegal_of_exec hwf h⟩

/-- A request whose word is no instruction leaves the scan and the emission and presents a failure or
nothing. -/
theorem inv_rejectRequest (e : Reject) (w : PortWord) {s : State} (hscan : ScanCoherent s)
    (hemission : EmissionCoherent s) : (rejectRequest e w s).Inv := by
  cases e <;> cases w <;> exact ⟨rfl, hscan, hemission, trivial⟩

end Sys2Proof.Machine

open Sys2Proof Sys2Proof.Machine

/-- Settles O3: a step does nothing, executes the instruction of the request taken, or rejects the
request; taking it writes the operand ports only. -/
theorem everyStepKeepsTheInvariant : Obligations.EveryStepKeepsTheInvariant := by
  intro s t hs hstep
  have ⟨_, hscan, hemission, _⟩ := hs
  obtain ⟨-, e⟩ | ⟨r, rest, -, ⟨i, hdecode, e⟩ | ⟨k, -, e⟩⟩ := step_cases s
  · cases e.symm.trans hstep
    exact hs
  · obtain ⟨-, hwf⟩ := encodeWord_of_decodeWord hdecode
    exact inv_of_exec (s := takeRequest r rest s) hwf hscan hemission (e.symm.trans hstep)
  · cases e.symm.trans hstep
    exact inv_rejectRequest k r.word (s := takeRequest r rest s) hscan hemission

end

section
/-! SUPPORT. The instruction PDEC on a sequence known by its pairs (O40 to O43, O56): the function
PDEC reads the header and then one bit per pair, and the instruction presents its answer. -/

namespace Sys2Proof.Machine

/-! ## A pair and the bit it reads as -/

/-- The bit a pair reads as, if it reads as one (`42_pulse_decode.md` R181). -/
def readPair (tol m sp : Nat) : Option Bool :=
  if matchDur tol m T_BIT_MARK = false then none
  else if matchDur tol sp T_ONE_SPACE then some true
  else if matchDur tol sp T_ZERO_SPACE then some false
  else none

/-- Pair `k` after the header stands in `P` and reads as `b`. -/
def PairAtReads (tol : Nat) (P : PulseSequence) (k : Nat) (b : Bool) : Prop :=
  ∃ m sp : Nat, P[2 + 2 * k]? = some m ∧ P[3 + 2 * k]? = some sp ∧ readPair tol m sp = some b

theorem pdecBits_of_readPair_some {tol m sp : Nat} {b : Bool} (h : readPair tol m sp = some b)
    (p : Fin 9 × Fin 8) (ps : List (Fin 9 × Fin 8)) (Q : PulseSequence) (G : Frame) :
    pdecBits tol (p :: ps) (m :: sp :: Q) G =
      pdecBits tol ps Q (if b then G.setBit p.1 p.2 true else G) := by
  unfold readPair at h
  split_ifs at h with hmark hone hzero
  · cases h
    rw [pdecBits, if_neg hmark, if_pos hone]
    rfl
  · cases h
    rw [pdecBits, if_neg hmark, if_neg hone, if_pos hzero]
    rfl

theorem pdecBits_of_readPair_none {tol m sp : Nat} (h : readPair tol m sp = none)
    (p : Fin 9 × Fin 8) (ps : List (Fin 9 × Fin 8)) (Q : PulseSequence) (G : Frame) :
    pdecBits tol (p :: ps) (m :: sp :: Q) G = .error .bitPatternMismatch := by
  rw [pdecBits]
  unfold readPair at h
  split_ifs at h ⊢ <;> rfl

theorem headerInWindow_iff (m sp : Nat) :
    HeaderInWindow m sp ↔ matchDur 25 m T_HDR_MARK = true ∧ matchDur 25 sp T_HDR_SPACE = true := by
  obtain ⟨hmark, -⟩ := windowsAtTwentyFivePerCent m
  obtain ⟨-, hspace, -⟩ := windowsAtTwentyFivePerCent sp
  rw [T_HDR_MARK, T_HDR_SPACE, hmark, hspace, HeaderInWindow, and_assoc]

/-- The windows at 25 per cent say when a pair reads as a bit. -/
theorem readPair_eq_some_iff (m sp : Nat) (b : Bool) :
    readPair 25 m sp = some b ↔ PairReads b m sp := by
  obtain ⟨-, -, hmark, -, -⟩ := windowsAtTwentyFivePerCent m
  obtain ⟨-, -, -, hone, hzero⟩ := windowsAtTwentyFivePerCent sp
  simp only [readPair, T_BIT_MARK, T_ONE_SPACE, T_ZERO_SPACE, ← Bool.not_eq_true, hmark, hone, hzero]
  cases b with
  | true => simp only [PairReads]; split_ifs <;> simp <;> omega
  | false => simp only [PairReads]; split_ifs <;> simp <;> omega

/-- A pair inside the windows of a bit's layout reads as that bit, since the space windows are
disjoint (`42_pulse_decode.md` R177). -/
theorem readPair_of_match {tol : Nat} (htol : tol ≤ 48) {m sp : Nat} {b : Bool}
    (hm : matchDur tol m 600 = true)
    (hsp : matchDur tol sp (if b then 1600 else 550) = true) : readPair tol m sp = some b := by
  cases b with
  | true => simp_all [readPair, T_BIT_MARK, T_ONE_SPACE]
  | false =>
    obtain ⟨hdisjoint, -⟩ := spaceWindowsAreDisjointUpToFortyEight
    have hone := (hdisjoint tol).2 htol sp
    simp_all [readPair, T_BIT_MARK, T_ONE_SPACE, T_ZERO_SPACE]

/-! ## The function PDEC, pair by pair -/

theorem exists_wireIndex_eq {n : Nat} (hn : n < 72) : ∃ p : Fin 9 × Fin 8, wireIndex p = n := by
  have hmem := List.mem_range.2 hn
  rw [← wirePositions_map_wireIndex, List.mem_map] at hmem
  obtain ⟨p, -, hp⟩ := hmem
  exact ⟨p, hp⟩

/-- After `n` pairs that read as bits the function stands at pair `n`, and its frame holds those
bits. -/
theorem pdecBits_after_pairs {tol : Nat} {P : PulseSequence} {n : Nat} (hn : n ≤ 72)
    (h : ∀ k < n, ∃ b, PairAtReads tol P k b) :
    ∃ G : Frame,
      pdecBits tol wirePositions (P.drop 2) Frame.zero =
        pdecBits tol (wirePositions.drop n) (P.drop (2 + 2 * n)) G ∧
      ∀ F : Frame, (∀ k < n, PairAtReads tol P k (F.wireBit k)) →
        FilledExcept (wirePositions.drop n) F G := by
  induction n with
  | zero => exact ⟨Frame.zero, rfl, fun F _ => filledExcept_zero F⟩
  | succ n ih =>
    obtain ⟨G, hG, hfilled⟩ := ih (by omega) fun k hk => h k (by omega)
    obtain ⟨p, rfl⟩ := exists_wireIndex_eq (n := n) (by omega)
    obtain ⟨b, m, sp, hm, hsp, hread⟩ := h (wireIndex p) (by omega)
    have hdrop := wirePositions_drop_wireIndex p
    have hfresh : p ∉ wirePositions.drop (wireIndex p + 1) := by
      have hnodup := wirePositions_nodup.sublist (List.drop_sublist (wireIndex p) _)
      rw [hdrop] at hnodup
      exact (List.nodup_cons.1 hnodup).1
    refine ⟨if b then G.setBit p.1 p.2 true else G, ?_, fun F hF => ?_⟩
    · rw [hG, hdrop, drop_eq_pair hm (by rwa [Nat.add_right_comm]),
        pdecBits_of_readPair_some hread]
      rfl
    · obtain ⟨m', sp', hm', hsp', hread'⟩ := hF (wireIndex p) (by omega)
      have hb : b = F.bit p.1 p.2 := by simp_all [wireBit_wireIndex]
      rw [hb]
      refine filledExcept_tail hfresh ?_
      rw [← hdrop]
      exact hfilled F fun k hk => hF k (by omega)

theorem pdec_of_short (tol : Nat) {P : PulseSequence} (h : P.length < 2) :
    pdec tol P = .error .truncatedFrame := by
  match P, h with
  | [], _ => rfl
  | [_], _ => rfl

theorem pdec_of_header_mismatch {tol : Nat} {P : PulseSequence} {m sp : Nat} (hm : P[0]? = some m)
    (hsp : P[1]? = some sp)
    (h : ¬(matchDur tol m T_HDR_MARK = true ∧ matchDur tol sp T_HDR_SPACE = true)) :
    pdec tol P = .error .headerMismatch := by
  have hP : P = m :: sp :: P.drop 2 := drop_eq_pair (k := 0) hm hsp
  rw [hP, pdec, if_pos (by simpa [imp_iff_not_or] using h)]

/-- The header pair stands in `P` inside its windows. -/
def HeaderMatches (tol : Nat) (P : PulseSequence) : Prop :=
  ∃ m sp : Nat, P[0]? = some m ∧ P[1]? = some sp ∧
    matchDur tol m T_HDR_MARK = true ∧ matchDur tol sp T_HDR_SPACE = true

theorem pdec_of_headerMatches {tol : Nat} {P : PulseSequence} (h : HeaderMatches tol P) :
    pdec tol P = pdecBits tol wirePositions (P.drop 2) Frame.zero := by
  obtain ⟨m, sp, hm, hsp, hmark, hspace⟩ := h
  have hP : P = m :: sp :: P.drop 2 := drop_eq_pair (k := 0) hm hsp
  rw [hP, pdec, if_neg (by simp [hmark, hspace])]
  rfl

/-- `42_pulse_decode.md` R192: 72 pairs that read as the bits of `F`. -/
theorem pdec_of_pairs {tol : Nat} {P : PulseSequence} {F : Frame} (hheader : HeaderMatches tol P)
    (h : ∀ k < 72, PairAtReads tol P k (F.wireBit k)) : pdec tol P = .ok F := by
  obtain ⟨G, hG, hfilled⟩ := pdecBits_after_pairs le_rfl fun k hk => ⟨_, h k hk⟩
  rw [pdec_of_headerMatches hheader, hG, ← eq_of_filledExcept_nil (hfilled F h)]
  rfl

/-- `42_pulse_decode.md` R185: of pair `n` at most a lone mark is left. -/
theorem pdec_of_pairs_run_out {tol : Nat} {P : PulseSequence} {n : Nat} (hn : n < 72)
    (hheader : HeaderMatches tol P) (h : ∀ k < n, ∃ b, PairAtReads tol P k b)
    (hlen : P.length < 4 + 2 * n) : pdec tol P = .error .truncatedFrame := by
  obtain ⟨G, hG, -⟩ := pdecBits_after_pairs hn.le h
  obtain ⟨p, rfl⟩ := exists_wireIndex_eq hn
  rw [pdec_of_headerMatches hheader, hG, wirePositions_drop_wireIndex]
  exact pdecBits_of_short tol _ _ (by rw [List.length_drop]; omega) G

/-- `42_pulse_decode.md` R188: pair `n` is the first that reads as no bit. -/
theorem pdec_of_bad_pair {tol : Nat} {P : PulseSequence} {n m sp : Nat} (hn : n < 72)
    (hheader : HeaderMatches tol P) (h : ∀ k < n, ∃ b, PairAtReads tol P k b)
    (hm : P[2 + 2 * n]? = some m) (hsp : P[3 + 2 * n]? = some sp)
    (hbad : readPair tol m sp = none) : pdec tol P = .error .bitPatternMismatch := by
  obtain ⟨G, hG, -⟩ := pdecBits_after_pairs hn.le h
  obtain ⟨p, rfl⟩ := exists_wireIndex_eq hn
  rw [pdec_of_headerMatches hheader, hG, wirePositions_drop_wireIndex,
    drop_eq_pair hm (by rwa [Nat.add_right_comm])]
  exact pdecBits_of_readPair_none hbad _ _ _ G

/-! ## The instruction PDEC presents the function's answer -/

theorem execPdecIn_of_pdec_error {p : Params} {s : State} {k : Failure}
    (h : pdec p.tolPct s.pulsesIn = .error k) :
    execPdecIn p s = .next (raiseFailure k (writeScan (scanAll p.tolPct s.pulsesIn) s)) := by
  have hscan := scanAll_answers_pdec p.tolPct s.pulsesIn
  rw [h] at hscan
  rw [execPdecIn, pdecEnd, hscan.2]

theorem scanAll_phase_of_pdec_ok {tol : Nat} {P : PulseSequence} {F : Frame}
    (h : pdec tol P = .ok F) : (scanAll tol P).phase = .done :=
  (((scanMachineAgreesWithTheFunction tol P).1 F).1 h).1

theorem scanAll_phase_of_pdec_error {tol : Nat} {P : PulseSequence} {k : Failure}
    (h : pdec tol P = .error k) : (scanAll tol P).phase = .failed :=
  (((scanMachineAgreesWithTheFunction tol P).2 k).1 h).1

/-- PDEC fails where the function does, with nothing written but the scan's registers. -/
theorem exec_pdec_fails {s : State} {k : Failure} (h : pdec 25 s.pulsesIn = .error k) :
    ∃ t : State, exec .pdec s = .next t ∧ t.out = some (.err k) ∧ t.phase = .failed ∧
      t.busy = false ∧ SamePorts s t ∧ SameEmission s t :=
  ⟨_, execPdecIn_of_pdec_error (p := Config.params) h, rfl, scanAll_phase_of_pdec_error h, rfl,
    ⟨rfl, rfl, rfl, rfl⟩, rfl, rfl⟩

/-! ## Sequences given by the windows at 25 per cent, or by the layout of a frame -/

theorem headerMatches_of_inWindow {P : PulseSequence} {m sp : Nat} (hm : P[0]? = some m)
    (hsp : P[1]? = some sp) (h : HeaderInWindow m sp) : HeaderMatches 25 P :=
  ⟨m, sp, hm, hsp, (headerInWindow_iff m sp).1 h⟩

theorem pairAtReads_of_pairReads {P : PulseSequence} {k : Nat} {b : Bool}
    (h : ∃ m sp : Nat, P[2 + 2 * k]? = some m ∧ P[3 + 2 * k]? = some sp ∧ PairReads b m sp) :
    PairAtReads 25 P k b := by
  obtain ⟨m, sp, hm, hsp, hread⟩ := h
  exact ⟨m, sp, hm, hsp, (readPair_eq_some_iff m sp b).2 hread⟩

theorem exists_pairAtReads_of_pairReads {P : PulseSequence} {k : Nat}
    (h : ∃ (m sp : Nat) (b : Bool),
      P[2 + 2 * k]? = some m ∧ P[3 + 2 * k]? = some sp ∧ PairReads b m sp) :
    ∃ b, PairAtReads 25 P k b := by
  obtain ⟨m, sp, b, hread⟩ := h
  exact ⟨b, pairAtReads_of_pairReads ⟨m, sp, hread⟩⟩

/-- The elements of `P` that belong to whole pairs match the layout of `F` as far as the last bit. -/
def FollowsLayout (tol : Nat) (F : Frame) (P : PulseSequence) : Prop :=
  ∀ k d : Nat, k < 146 → k < 2 * (P.length / 2) → P[k]? = some d →
    matchDur tol d ((penc F)[k]?.getD 0) = true

theorem FollowsLayout.matches_pulseAt {tol : Nat} {F : Frame} {P : PulseSequence}
    (h : FollowsLayout tol F P) {k : Nat} (hk : k < 146) (hpair : k < 2 * (P.length / 2)) :
    ∃ d : Nat, P[k]? = some d ∧ matchDur tol d (pulseAt F k) = true := by
  have hget : P[k]? = some P[k] := List.getElem?_eq_getElem (by omega)
  refine ⟨_, hget, ?_⟩
  have hmatch := h k _ hk hpair hget
  rwa [penc_getElem? F (by omega)] at hmatch

theorem FollowsLayout.headerMatches {tol : Nat} {F : Frame} {P : PulseSequence}
    (h : FollowsLayout tol F P) (hlen : 2 ≤ P.length) : HeaderMatches tol P := by
  obtain ⟨m, hm, hmark⟩ := h.matches_pulseAt (k := 0) (by omega) (by omega)
  obtain ⟨sp, hsp, hspace⟩ := h.matches_pulseAt (k := 1) (by omega) (by omega)
  exact ⟨m, sp, hm, hsp, hmark, hspace⟩

theorem FollowsLayout.pairAtReads {tol : Nat} (htol : tol ≤ 48) {F : Frame} {P : PulseSequence}
    (h : FollowsLayout tol F P) {k : Nat} (hk : k < 72) (hlen : 4 + 2 * k ≤ P.length) :
    PairAtReads tol P k (F.wireBit k) := by
  obtain ⟨m, hm, hmark⟩ := h.matches_pulseAt (k := 2 + 2 * k) (by omega) (by omega)
  obtain ⟨sp, hsp, hspace⟩ := h.matches_pulseAt (k := 3 + 2 * k) (by omega) (by omega)
  rw [pulseAt_mark F hk] at hmark
  rw [pulseAt_space F hk] at hspace
  exact ⟨m, sp, hm, hsp, readPair_of_match htol hmark hspace⟩

theorem FollowsLayout.pdec_ok {tol : Nat} (htol : tol ≤ 48) {F : Frame} {P : PulseSequence}
    (h : FollowsLayout tol F P) (hlen : 146 ≤ P.length) : pdec tol P = .ok F :=
  pdec_of_pairs (h.headerMatches (by omega)) fun _ hk => h.pairAtReads htol hk (by omega)

theorem FollowsLayout.pdec_truncated {tol : Nat} (htol : tol ≤ 48) {F : Frame} {P : PulseSequence}
    (h : FollowsLayout tol F P) (hlen : P.length ≤ 145) : pdec tol P = .error .truncatedFrame := by
  by_cases hshort : P.length < 2
  · exact pdec_of_short tol hshort
  · exact pdec_of_pairs_run_out (n := (P.length - 2) / 2) (by omega) (h.headerMatches (by omega))
      (fun k hk => ⟨_, h.pairAtReads htol (by omega) (by omega)⟩) (by omega)

end Sys2Proof.Machine

open Sys2Proof Sys2Proof.Machine

/-- Settles O40: the function answers the frame, and a scan that is done stands at element 146. -/
theorem pdecReadsTheFrameTheSpacesSpell : Obligations.PdecReadsTheFrameTheSpacesSpell := by
  intro s F m sp hm hsp hheader hpairs
  have hpdec : pdec 25 s.pulsesIn = .ok F :=
    pdec_of_pairs (headerMatches_of_inWindow hm hsp hheader) fun k hk =>
      pairAtReads_of_pairReads (hpairs k hk)
  have hdone := scanAll_phase_of_pdec_ok hpdec
  obtain ⟨-, -, hpos⟩ := (coherent_of_done hdone).1 (scanAll_coherent 25 s.pulsesIn)
  have hF : (scanAll 25 s.pulsesIn).F = F :=
    (((scanMachineAgreesWithTheFunction 25 s.pulsesIn).1 F).1 hpdec).2
  exact ⟨_, execPdecIn_of_pdec_ok (p := Config.params) hpdec, rfl, hF, hdone, hpos, rfl,
    ⟨rfl, rfl, rfl, rfl⟩, rfl, rfl⟩

/-- Settles O41: the function judges the length and then the header pair. -/
theorem pdecJudgesTheHeaderPair : Obligations.PdecJudgesTheHeaderPair := by
  intro s
  refine ⟨fun hlen => exec_pdec_fails (pdec_of_short 25 hlen), fun m sp hm hsp hheader => ?_⟩
  rw [headerInWindow_iff] at hheader
  exact exec_pdec_fails (pdec_of_header_mismatch hm hsp hheader)

/-- Settles O42: the function stops at the pair that reads as no bit. -/
theorem pdecStopsAtTheFirstBadPair : Obligations.PdecStopsAtTheFirstBadPair := by
  intro s n m sp a b hn hm hsp hheader hpairs ha hb hone hzero
  have hbad : readPair 25 a b = none := by
    rw [Option.eq_none_iff_forall_ne_some]
    rintro (_ | _) hread
    · exact hzero ((readPair_eq_some_iff a b false).1 hread)
    · exact hone ((readPair_eq_some_iff a b true).1 hread)
  exact exec_pdec_fails (pdec_of_bad_pair hn (headerMatches_of_inWindow hm hsp hheader)
    (fun k hk => exists_pairAtReads_of_pairReads (hpairs k hk)) ha hb hbad)

/-- Settles O56: the function finds no whole pair left for bit `n`. -/
theorem pdecIsTruncatedWhenThePairsRunOut : Obligations.PdecIsTruncatedWhenThePairsRunOut := by
  intro s n m sp hn hm hsp hheader hpairs hlen
  exact exec_pdec_fails (pdec_of_pairs_run_out hn (headerMatches_of_inWindow hm hsp hheader)
    (fun k hk => exists_pairAtReads_of_pairReads (hpairs k hk)) (by omega))

/-- Settles O43: such a sequence reads as the bits of the frame, as far as its pairs go. -/
theorem pdecDecodesOrIsTruncatedByLength : Obligations.PdecDecodesOrIsTruncatedByLength := by
  intro p s F htol hfollows
  have hfollows : FollowsLayout p.tolPct F s.pulsesIn := hfollows
  refine ⟨fun hlen => ?_, fun hlen => ?_⟩
  · have hpdec := hfollows.pdec_ok htol hlen
    exact ⟨hpdec, _, execPdecIn_of_pdec_ok hpdec, rfl, scanAll_phase_of_pdec_ok hpdec⟩
  · have hpdec := hfollows.pdec_truncated htol hlen
    exact ⟨hpdec, _, execPdecIn_of_pdec_error hpdec, rfl, scanAll_phase_of_pdec_error hpdec⟩

end

section
/-! SUPPORT. SEND (O46, O47): its result and its registers, by what FENC answers on the command. -/

namespace Sys2Proof.Machine

theorem exec_send_of_command {s : State} {c : SemanticCommand} (h : s.cmdIn.command = some c) :
    exec .send s = .next (sendOn c s) := by
  simp [exec, execSend, h]

/-- SEND on a command FENC encodes leaves the frame in the buffer and emits its whole sequence
(`43_driver.md` R200). -/
theorem exec_send_of_fenc_ok {s : State} {c : SemanticCommand} {F : Frame}
    (hc : s.cmdIn.command = some c) (hF : fenc c = .ok F) :
    exec .send s = .next { s with
      F := F
      emitPos := 147
      emitted := penc F
      out := some (.ok (.pulses (penc F)))
      busy := false } := by
  rw [exec_send_of_command hc, sendOn, hF, ← map_pulseAt_eq_penc]
  exact congrArg Host.Outcome.next (pencBuffer_eq (loadFrame F s))

/-- SEND on a command FENC fails on writes no register: the transmitter is handed nothing
(`43_driver.md` R201). -/
theorem exec_send_of_fenc_error {s : State} {c : SemanticCommand} {k : Failure}
    (hc : s.cmdIn.command = some c) (hk : fenc c = .error k) :
    exec .send s = .next { s with out := some (.err k), busy := false } := by
  rw [exec_send_of_command hc, sendOn, hk]
  rfl

end Sys2Proof.Machine

open Sys2Proof Sys2Proof.Machine

/-- Settles O46: both instructions go by what the function FENC answers on the command, and what SEND
leaves unchanged on every path is its frame (O55). -/
theorem sendIsPencAfterFenc : Obligations.SendIsPencAfterFenc := by
  intro s
  obtain ⟨t, ht⟩ := exec_next .fenc s
  obtain ⟨u, hu⟩ := exec_next .send s
  obtain ⟨hrequests, hcmd, hpulses, -, hframe, hscan, -, -, -, hbusy⟩ :=
    instructionsChangeOnlyTheirOwnRegisters .send s u hu
  refine ⟨t, u, ht, hu, fun k hk => ?_, fun F hF => ?_,
    ⟨hrequests, hcmd, hframe (by decide), hpulses⟩, hscan (by decide) (by decide), hbusy⟩
  · obtain ⟨c, hc, herror⟩ := (exec_fenc_err_iff ht k).1 hk
    cases (exec_send_of_fenc_error hc herror).symm.trans hu
    exact ⟨rfl, ⟨rfl, rfl⟩, rfl⟩
  · obtain ⟨c, hc, hok⟩ := (exec_fenc_frame_iff ht F).1 hF
    cases (exec_send_of_fenc_ok hc hok).symm.trans hu
    exact ⟨_, exec_penc_eq _, rfl, rfl⟩

/-- Settles O47: the frame of the command is the one FENC answers, and its layout the sequence PENC
emits. -/
theorem sendEmitsTheLayoutOfItsCommand : Obligations.SendEmitsTheLayoutOfItsCommand := by
  intro s c F hc hF
  rw [layoutOf_eq_penc]
  exact ⟨_, exec_send_of_fenc_ok hc ((fenc_ok_iff_encodesTo c F).2 hF), rfl, rfl, rfl, rfl, rfl,
    ⟨rfl, rfl, rfl, rfl⟩, rfl, rfl, rfl, rfl⟩

end

section
/-! SUPPORT. RECV (O48, O49): once the function PDEC answers a frame, RECV presents what FDEC does on
that frame. -/

namespace Sys2Proof.Machine

/-- PDEC presents a frame where the function PDEC answers it on the pulse operand. -/
theorem exec_pdec_frame_iff {s t : State} (h : exec .pdec s = .next t) (F : Frame) :
    t.out = some (.ok (.frame F)) ↔ pdec 25 s.pulsesIn = .ok F := by
  cases hp : pdec 25 s.pulsesIn with
  | ok G =>
    cases (execPdecIn_of_pdec_ok (p := Config.params) hp).symm.trans h
    simp
  | error k =>
    cases (execPdecIn_of_pdec_error (p := Config.params) hp).symm.trans h
    simp

/-- The second stage of RECV judges the frame the first one answers (`43_driver.md` R202). -/
theorem exec_recv_out_of_pdec_ok {s u : State} {F : Frame} (hu : exec .recv s = .next u)
    (hF : pdec 25 s.pulsesIn = .ok F) : u.out = (fdecBuffer (loadFrame F s)).out := by
  have hscan := scanAll_answers_pdec 25 s.pulsesIn
  rw [hF] at hscan
  obtain ⟨-, hfailure, hframe⟩ := hscan
  have hstage : u = recvEnd (scanAll 25 s.pulsesIn) s := by
    cases hu
    rfl
  rw [hstage, recvEnd, hfailure]
  exact fdecBuffer_out_congr hframe

theorem exec_recv_command_iff {s u : State} {F : Frame} (hu : exec .recv s = .next u)
    (hF : pdec 25 s.pulsesIn = .ok F) (d : DecodedCommand) :
    u.out = some (.ok (.command d)) ↔ fdec F = .ok d := by
  rw [exec_recv_out_of_pdec_ok hu hF, fdecBuffer_command_iff, loadFrame_F]

end Sys2Proof.Machine

open Sys2Proof Sys2Proof.Machine

/-- Settles O49: a failure of the scan is RECV's own, a frame is handed on to FDEC, and the two
instructions write the registers of one scan. -/
theorem recvIsFdecAfterPdec : Obligations.RecvIsFdecAfterPdec := by
  intro s
  obtain ⟨t, ht⟩ := exec_next .pdec s
  obtain ⟨u, hu⟩ := exec_next .recv s
  obtain ⟨o, hpdec⟩ := endsFrom_of_exec_pdec ht
  obtain ⟨o', hrecv⟩ := endsFrom_of_exec_recv hu
  refine ⟨t, u, ht, hu, fun k hk => ?_, fun F hF => ?_, ?_⟩
  · exact (exec_recv_err_iff hu k).2 (.inl ((exec_pdec_err_iff ht k).1 hk))
  · have hout := exec_recv_out_of_pdec_ok hu ((exec_pdec_frame_iff ht F).1 hF)
    exact ⟨_, rfl, hout.trans (fdecBuffer_out_congr rfl)⟩
  · subst hpdec hrecv
    exact ⟨⟨rfl, rfl, rfl, rfl⟩, ⟨rfl, rfl, rfl, rfl⟩, ⟨rfl, rfl⟩, rfl, rfl⟩

/-- Settles O48: PDEC answers the frame the spaces spell (O40), and RECV presents the command FDEC
answers on it, with the registers as PDEC leaves them (O49). -/
theorem recvDeliversTheCommandTheSpacesSpell :
    Obligations.RecvDeliversTheCommandTheSpacesSpell := by
  intro s F d m sp hchecks hd hm hsp hheader hpairs
  obtain ⟨t, ht, hout, hF, hphase, hpos, -⟩ :=
    pdecReadsTheFrameTheSpacesSpell s F m sp hm hsp hheader hpairs
  obtain ⟨t', u, ht', hu, -, -, hports, hscan, hemission, huF, hbusy⟩ := recvIsFdecAfterPdec s
  cases ht.symm.trans ht'
  obtain ⟨huphase, -, -, hupos⟩ := hscan
  have hcommand := (exec_recv_command_iff hu ((exec_pdec_frame_iff ht F).1 hout) d).2
    ((fdec_ok_iff_decodesTo F d).2 ⟨hchecks, hd⟩)
  exact ⟨u, hu, hcommand, huF.trans hF, huphase.trans hphase, hupos.trans hpos, hbusy, hports,
    hemission⟩

end

section
/-! SUPPORT. RECV of SEND (O50): a canonical command comes back equivalent, and a command that was
received, with fields that can be sent, is canonical. -/

namespace Sys2Proof.Machine

/-- The first half of `43_driver.md` R208: PDEC inverts PENC, and the frame of a canonical command
stands for an equivalent one. -/
theorem recv_send_equivalent {s u : State} {c : SemanticCommand} (hc : s.cmdIn.command = some c)
    (hcanonical : c.Canonical) :
    ∃ (t : State) (P : PulseSequence), exec .send s = .next t ∧ t.out = some (.ok (.pulses P)) ∧
      (u.pulsesIn = P →
        ∃ (v : State) (d : DecodedCommand), exec .recv u = .next v ∧
          v.out = some (.ok (.command d)) ∧ Equivalent c d) := by
  obtain ⟨F, hF⟩ := exists_encodesTo_of_canonical hcanonical
  refine ⟨_, penc F, exec_send_of_fenc_ok hc ((fenc_ok_iff_encodesTo c F).2 hF), rfl, fun hu => ?_⟩
  obtain ⟨d, hd, hequiv, -⟩ := exists_decodesTo_of_encodesTo hcanonical hF
  obtain ⟨v, hv⟩ := exec_next .recv u
  have hpdec : pdec 25 u.pulsesIn = .ok F := by
    rw [hu]
    exact pdec_penc (by decide) F
  have hfdec := (fdec_ok_iff_decodesTo F d).2 ⟨checksPass_of_encodesTo hF, hd⟩
  exact ⟨v, d, hv, (exec_recv_command_iff hv hpdec d).2 hfdec, hequiv⟩

/-- A command with the mode, the preset and the temperature of a legal decoded command is canonical,
if that temperature is in the range (`30_encoding.md` R93, R94). -/
theorem canonical_of_legal {c : SemanticCommand} {d : DecodedCommand} (hd : d.Legal)
    (hrange : ∀ f : Int, d.temperature = some f → 62 ≤ f ∧ f ≤ 86) (hmode : c.mode = d.mode)
    (hpreset : c.preset = d.preset)
    (htemp : ∀ f : Int, d.temperature = some f → c.temperature = f) : c.Canonical := by
  obtain ⟨hheat, honlyCool, -, -, hcool⟩ := hd
  rw [SemanticCommand.Canonical, hmode, hpreset]
  refine ⟨hheat, fun hne => by_contra fun hp => hne (honlyCool hp), fun hc => ?_⟩
  obtain ⟨f, hf, -⟩ := hcool hc
  rw [htemp f hf]
  exact hrange f hf

end Sys2Proof.Machine

open Sys2Proof Sys2Proof.Machine

/-- Settles O50: what RECV presents is legal, so a command to be sent with its fields is canonical,
and the second half is the first half on that command. -/
theorem endToEndRoundTrip : Obligations.EndToEndRoundTrip := by
  refine ⟨fun s u c hc hcanonical => recv_send_equivalent hc hcanonical, ?_⟩
  intro s t d ht hout _ hrange u w c hc hmode hpreset _ htemp
  have hlegal : OutputLegal t.out := outputLegal_of_exec rfl ht
  rw [hout] at hlegal
  exact recv_send_equivalent hc (canonical_of_legal hlegal hrange hmode hpreset htemp)

end

section
/-! SUPPORT. A flipped bit on the wire (O51): the sequence of a frame with one bit flipped is the
sequence of the frame with that bit's space exchanged. -/

namespace Sys2Proof.Machine

theorem wireBit_flipBit (F : Frame) (p : Fin 9 × Fin 8) {n : Nat} (hn : n < 72) :
    (flipBit F p.1 p.2).wireBit n = if n = wireIndex p then !F.wireBit n else F.wireBit n := by
  obtain ⟨q, rfl⟩ := exists_wireIndex_eq hn
  rw [wireBit_wireIndex, wireBit_wireIndex, flipBit, Frame.bit_setBit]
  by_cases hqp : q = p
  · subst hqp
    simp
  · rw [if_neg fun e => hqp (Prod.ext e.1 e.2), if_neg fun e => hqp (wireIndex_inj.1 e)]

/-- An element tells two frames apart only where it is the space of a bit that does. -/
theorem pulseAt_congr {F G : Frame} {k : Nat}
    (h : ∀ n : Nat, k = 3 + 2 * n → F.wireBit n = G.wireBit n) : pulseAt F k = pulseAt G k := by
  by_cases hfixed : k = 0 ∨ k = 1 ∨ k % 2 = 0
  · obtain rfl | rfl | heven := hfixed
    · rfl
    · rfl
    · simp [pulseAt, heven]
  · have hspace : k = 3 + 2 * ((k - 3) / 2) := by omega
    rw [pulseAt, pulseAt, h _ hspace]

theorem penc_flipBit (F : Frame) (p : Fin 9 × Fin 8) :
    penc (flipBit F p.1 p.2) =
      (penc F).set (3 + 2 * wireIndex p) (if F.wireBit (wireIndex p) then 550 else 1600) := by
  have hp := wireIndex_lt p
  rw [← map_pulseAt_eq_penc, ← map_pulseAt_eq_penc]
  refine List.ext_getElem (by simp) fun k hk _ => ?_
  rw [List.getElem_set, List.getElem_map, List.getElem_map, List.getElem_range]
  have hk : k < 147 := by simpa using hk
  by_cases hspace : 3 + 2 * wireIndex p = k
  · subst hspace
    rw [if_pos rfl, pulseAt_space _ hp, wireBit_flipBit F p hp, if_pos rfl]
    cases F.wireBit (wireIndex p) <;> rfl
  · rw [if_neg hspace]
    refine pulseAt_congr fun n hn => ?_
    rw [wireBit_flipBit F p (by omega), if_neg (by omega)]

/-- FDEC of a frame with good checks and a flipped checksum bit fails (`43_driver.md` R205). -/
theorem fdec_flipBit_checksum {F : Frame} (hF : ChecksPass F) (j : Fin 8) :
    fdec (flipBit F 8 j) = .error .checksumMismatch := by
  obtain ⟨v, hv, hflip⟩ := exists_flipBit_eq_setByte F 8 j
  rw [hflip]
  exact fdec_setByte_summed hF (by decide) hv

end Sys2Proof.Machine

open Sys2Proof Sys2Proof.Machine

/-- Settles O51: the changed sequence is that of the frame with the checksum bit flipped, which the
scan reads back and FDEC fails on. -/
theorem flippedChecksumBitIsCaughtByRecv : Obligations.FlippedChecksumBitIsCaughtByRecv := by
  intro s t u F n d ht hF hlow hhigh hd hu
  obtain ⟨c, -, hc⟩ := (exec_fenc_frame_iff ht F).1 hF
  have hchecks : ChecksPass F := checksPass_of_encodesTo ((fenc_ok_iff_encodesTo c F).1 hc)
  obtain ⟨⟨i, j⟩, rfl⟩ := exists_wireIndex_eq (n := n) (by omega)
  obtain rfl : i = 8 := by
    simp only [wireIndex] at hlow
    omega
  have hspace : d = if F.wireBit (wireIndex (8, j)) then 1600 else 550 := by
    rw [penc_getElem? F (by omega), pulseAt_space F (by omega)] at hd
    exact (Option.some.inj hd).symm
  have hother : (if d = 550 then 1600 else 550) =
      if F.wireBit (wireIndex (8, j)) then 550 else 1600 := by
    rw [hspace]
    cases F.wireBit (wireIndex (8, j)) <;> rfl
  have hpdec : pdec 25 u.pulsesIn = .ok (flipBit F 8 j) := by
    rw [hu, hother, ← penc_flipBit F (8, j)]
    exact pdec_penc (by decide) _
  obtain ⟨v, hv⟩ := exec_next .recv u
  refine ⟨v, hv, ?_⟩
  rw [exec_recv_out_of_pdec_ok hv hpdec, fdecBuffer_err_iff]
  exact fdec_flipBit_checksum hchecks j

end

section
/-! SUPPORT. Every typed request ends in a result (O7), and with none waiting nothing happens (O5). -/

namespace Sys2Proof.Machine

theorem fencOn_presents (c : SemanticCommand) (s : State) :
    ∃ o : Response, (fencOn c s).out = some o := by
  unfold fencOn
  split <;> exact ⟨_, rfl⟩

theorem sendOn_presents (c : SemanticCommand) (s : State) :
    ∃ o : Response, (sendOn c s).out = some o := by
  unfold sendOn
  split <;> exact ⟨_, rfl⟩

theorem fdecBuffer_presents (s : State) : ∃ o : Response, (fdecBuffer s).out = some o := by
  unfold fdecBuffer
  split <;> exact ⟨_, rfl⟩

theorem pdecEnd_presents (sc : Scan) (s : State) :
    ∃ o : Response, (pdecEnd sc s).out = some o := by
  unfold pdecEnd
  split <;> exact ⟨_, rfl⟩

theorem recvEnd_presents (sc : Scan) (s : State) :
    ∃ o : Response, (recvEnd sc s).out = some o := by
  unfold recvEnd
  split
  · exact fdecBuffer_presents _
  · exact ⟨_, rfl⟩

/-- Only FENC and SEND can be refused, and only for want of a command (`30_encoding.md` R103). -/
theorem exec_presents {i : Instr} {s t : State} (h : exec i s = .next t)
    (hcmd : i = .fenc ∨ i = .send → ∃ c : SemanticCommand, s.cmdIn.command = some c) :
    ∃ o : Response, t.out = some o := by
  cases i with
  | fenc =>
    obtain ⟨c, hc⟩ := hcmd (.inl rfl)
    cases (exec_fenc_of_command hc).symm.trans h
    exact fencOn_presents c s
  | send =>
    obtain ⟨c, hc⟩ := hcmd (.inr rfl)
    cases (exec_send_of_command hc).symm.trans h
    exact sendOn_presents c s
  | fdec =>
    cases h
    exact fdecBuffer_presents _
  | penc =>
    cases h
    exact ⟨_, rfl⟩
  | pdec =>
    cases h
    exact pdecEnd_presents _ s
  | recv =>
    cases h
    exact recvEnd_presents _ s
  | frameOff | frameAuto | frameCool | frameDry | frameFanOnly | frameEco | frameSleep =>
    cases h
    exact ⟨_, rfl⟩

/-- The oldest request is taken and ends in a result. -/
def EndsInAResult (s : State) (rest : List Request) : Prop :=
  ∃ (t : State) (o : Response),
    step s = .next t ∧ t.out = some o ∧ t.busy = false ∧ t.requests = rest

theorem endsInAResult_of_decodeWord_ok {s : State} {r : Request} {rest : List Request} {i : Instr}
    (hr : s.requests = r :: rest) (hd : decodeWord r.word = .ok i)
    (hcmd : i = .fenc ∨ i = .send → ∃ c : SemanticCommand, r.cmd.command = some c) :
    EndsInAResult s rest := by
  obtain ⟨t, ht⟩ := exec_next i (takeRequest r rest s)
  obtain ⟨o, ho⟩ := exec_presents ht hcmd
  obtain ⟨hrequests, -, -, -, -, -, -, -, -, hbusy⟩ :=
    instructionsChangeOnlyTheirOwnRegisters i _ t ht
  exact ⟨t, o, (step_of_decodeWord_ok hr hd).trans ht, ho, hbusy, hrequests⟩

theorem exists_decodeOp_ok {code : BitVec 3} (h6 : code ≠ 6) (h7 : code ≠ 7) :
    ∃ i : Instr, decodeOp code = .ok i := by
  have hcode : code = 0 ∨ code = 1 ∨ code = 2 ∨ code = 3 ∨ code = 4 ∨ code = 5 := by bv_omega
  obtain rfl | rfl | rfl | rfl | rfl | rfl := hcode <;> exact ⟨_, rfl⟩

/-- A bare frame ends in a result, since it is served as FDEC of it (O54, log 4). -/
theorem endsInAResult_of_frame {s : State} {F : Frame} {cmd : CommandOperand} {f : Frame}
    {P : PulseSequence} {rest : List Request}
    (hr : s.requests = ⟨.frame72 F, cmd, f, P⟩ :: rest) : EndsInAResult s rest := by
  have hserved := framePresentedAloneIsServedAsFdec s F cmd f P rest
  rw [← hr] at hserved
  obtain ⟨t, o, ht, hresult⟩ := endsInAResult_of_decodeWord_ok (i := .fdec)
    (s := { s with requests := ⟨.op3 1, cmd, F, P⟩ :: rest }) rfl rfl (by simp)
  exact ⟨t, o, hserved.trans ht, hresult⟩

end Sys2Proof.Machine

open Sys2Proof Sys2Proof.Machine

/-- Settles O7: a code that is not reserved selects an instruction, and a bare frame is served as
FDEC of it. -/
theorem everyTypedRequestEndsInAResult : Obligations.EveryTypedRequestEndsInAResult := by
  rintro s ⟨word, cmd, f, P⟩ rest hr h6 h7 hcmd
  cases word with
  | op3 code =>
    obtain ⟨i, hi⟩ := exists_decodeOp_ok (code := code) (by simpa using h6) (by simpa using h7)
    refine endsInAResult_of_decodeWord_ok hr hi fun hreads => hcmd ?_
    obtain ⟨hword, -⟩ := encodeWord_of_decodeOp hi
    obtain rfl | rfl := hreads
    · exact .inl hword.symm
    · exact .inr hword.symm
  | frame72 F => exact endsInAResult_of_frame hr

/-- Settles O5: of all a step can do, only leaving the state as it is needs no request. -/
theorem stepWithNoRequestChangesNothing : Obligations.StepWithNoRequestChangesNothing := by
  intro s hnone
  obtain ⟨-, hstep⟩ | ⟨r, rest, hr, -⟩ := step_cases s
  · exact hstep
  · cases hnone.symm.trans hr

end

section
/-! SUPPORT. The failures of FENC and SEND (O20, O21): the commands the function FENC fails on, and
that no other instruction presents these two failures. -/

namespace Sys2Proof.Machine

/-- FENC fails on HEAT and on COOL outside the range, and on no other command (`40_framecodec.md`
R121, R132). -/
theorem fenc_error_iff (c : SemanticCommand) (k : Failure) :
    fenc c = .error k ↔
      (c.mode = .heat ∧ k = .unsupportedMode) ∨
        (c.mode = .cool ∧ (c.temperature < 62 ∨ 86 < c.temperature) ∧
          k = .temperatureOutOfRange) := by
  cases hm : c.mode with
  | off => simp [fenc_off hm]
  | auto => simp [fenc_auto hm]
  | fanOnly => simp [fenc_fanOnly hm]
  | dry => simp [fenc_dry hm]
  | heat => simp [fenc_heat hm, eq_comm]
  | cool =>
    by_cases ht : c.temperature < 62 ∨ 86 < c.temperature
    · simp [fenc_cool_error hm ht, ht, eq_comm]
    · simp [fenc_cool_ok hm (by omega) (by omega), ht]

theorem eq_fenc_or_send_of_mem_failuresOf {i : Instr} {k : Failure} (hk : k ∈ failuresOf .fenc)
    (hi : k ∈ failuresOf i) : i = .fenc ∨ i = .send := by
  have hfdec : ∀ k ∈ failuresOf .fenc, k ∉ failuresOf .fdec := by decide
  have hpdec : ∀ k ∈ failuresOf .fenc, k ∉ failuresOf .pdec := by decide
  cases i with
  | fenc => exact .inl rfl
  | send => exact .inr rfl
  | fdec => exact absurd hi (hfdec k hk)
  | pdec => exact absurd hi (hpdec k hk)
  | recv =>
    rw [failuresOf_recv, List.mem_append] at hi
    exact absurd hi (not_or.2 ⟨hpdec k hk, hfdec k hk⟩)
  | penc | frameOff | frameAuto | frameCool | frameDry | frameFanOnly | frameEco | frameSleep =>
    cases hi

/-- A failure of FENC is presented exactly by FENC and SEND of a command the function FENC fails on
with it. -/
theorem exec_presents_fenc_failure_iff {k : Failure} (hk : k ∈ failuresOf .fenc) (s : State)
    (i : Instr) :
    (∃ t : State, exec i s = .next t ∧ t.out = some (.err k)) ↔
      (i = .fenc ∨ i = .send) ∧
        ∃ c : SemanticCommand, s.cmdIn.command = some c ∧ fenc c = .error k := by
  constructor
  · rintro ⟨t, h, hout⟩
    obtain rfl | rfl := eq_fenc_or_send_of_mem_failuresOf hk (mem_failuresOf_of_exec_err h hout)
    · exact ⟨.inl rfl, (exec_fenc_err_iff h k).1 hout⟩
    · exact ⟨.inr rfl, (exec_send_err_iff h k).1 hout⟩
  · rintro ⟨hi, hc⟩
    obtain ⟨t, h⟩ := exec_next i s
    obtain rfl | rfl := hi
    · exact ⟨t, h, (exec_fenc_err_iff h k).2 hc⟩
    · exact ⟨t, h, (exec_send_err_iff h k).2 hc⟩

/-- No instruction delivers HEAT; of a frame form this holds even if its fields are not
well-formed. -/
theorem mode_ne_heat_of_exec {i : Instr} {s t : State} {d : DecodedCommand}
    (h : exec i s = .next t) (hout : t.out = some (.ok (.command d))) : d.mode ≠ .heat := by
  cases i with
  | fenc | fdec | penc | pdec | send | recv =>
    have hlegal : OutputLegal t.out := outputLegal_of_exec rfl h
    rw [hout] at hlegal
    exact hlegal.1
  | frameOff | frameAuto | frameCool | frameDry | frameFanOnly | frameEco | frameSleep =>
    cases h
    cases hout
    nofun

end Sys2Proof.Machine

open Sys2Proof Sys2Proof.Machine

/-- Settles O20: FENC fails so on COOL outside the range only, and FDEC accepts any temperature byte
once the checks and the nibble are good (O13). -/
theorem temperatureOutOfRangeIsRaisedExactlyByCool :
    Obligations.TemperatureOutOfRangeIsRaisedExactlyByCool := by
  refine ⟨fun s i => ?_, fun s c hc hm ht => ?_, fun s hchecks hnibble => ?_⟩
  · rw [exec_presents_fenc_failure_iff (by decide)]
    simp [fenc_error_iff]
  · exact ⟨_, _, fencCoolBuildsItsFrame s c hc hm (by omega) (by omega), rfl⟩
  · obtain ⟨-, haccepts⟩ := frameWordDecodesExactlyWhenFdecAccepts s s.frameIn rfl
    have hknown : [1, 5, 6] ⊆ [0, 1, 2, 3, 5, 6] := by decide
    exact haccepts.2 ⟨hchecks, .inr (hknown hnibble)⟩

/-- Settles O21: FENC fails so on HEAT only, and a delivered command is legal. -/
theorem unsupportedModeIsRaisedExactlyByHeat :
    Obligations.UnsupportedModeIsRaisedExactlyByHeat := by
  refine fun s i => ⟨?_, fun t d h hout => mode_ne_heat_of_exec h hout⟩
  rw [exec_presents_fenc_failure_iff (by decide)]
  simp [fenc_error_iff]

end

section
/-! SUPPORT. The failures of FDEC (O25), in the order of its checks. -/

namespace Sys2Proof.Machine

theorem fdec_of_deviceId_ne {F : Frame} (hid : F.deviceId ≠ DEVICE_ID) :
    fdec F = .error .badDeviceId := by
  rw [fdec, if_pos hid]

theorem fdec_of_unknown_nibble {F : Frame} (hF : ChecksPass F) (hon : F.powerState ≠ 0x00)
    (hnibble : modeNibbleOf F ∉ [0, 1, 2, 3, 5, 6]) : fdec F = .error .unknownModeNibble := by
  cases hfdec : fdec F with
  | ok d =>
    have haccepted := (exists_fdec_ok_iff_exists_decodeFrame_ok F).1 ⟨d, hfdec⟩
    obtain ⟨-, hoff | hknown⟩ := (exists_decodeFrame_ok_iff F).1 haccepted
    · exact absurd hoff hon
    · exact absurd hknown hnibble
  | error k => rw [eq_unknownModeNibble_of_fdec_error hF hfdec]

end Sys2Proof.Machine

open Sys2Proof Sys2Proof.Machine

/-- Settles O25: the function FDEC answers the failure of the first check that is not met. -/
theorem fdecRaisesItsFailuresInOrder : Obligations.FdecRaisesItsFailuresInOrder := by
  intro s
  refine ⟨fun hid => ?_, fun hid hsum => ?_, fun hF hon hnibble => ?_⟩
  · exact exec_fdec_of_fdec_error (fdec_of_deviceId_ne hid)
  · have hne : s.frameIn.checksum ≠
        csum s.frameIn.powerState s.frameIn.fanMode s.frameIn.tempOrMode := fun h =>
      hsum ((checksPass_iff s.frameIn).2 ⟨hid, h⟩).2
    exact exec_fdec_of_fdec_error (fdec_of_checksum_ne hid hne)
  · exact exec_fdec_of_fdec_error (fdec_of_unknown_nibble hF hon hnibble)

end

section
/-! SUPPORT. The builds (O4, O59, O60): a step of any build runs the instruction decoded, and PDEC and
RECV of a build present what the function PDEC at its tolerance leads to. -/

namespace Sys2Proof.Machine

/-! ## The step of a build -/

theorem stepIn_of_decodeWord_ok (p : Params) {s : State} {r : Request} {rest : List Request}
    {i : Instr} (hr : s.requests = r :: rest) (hd : decodeWord r.word = .ok i) :
    stepIn p s = execIn p i (takeRequest r rest s) := by
  simp [stepIn, serve, hr, hd]

/-! ## RECV of a build, by the answer of the function PDEC -/

/-- The second stage of RECV judges the frame the first one answers, in the build of any tolerance
(`43_driver.md` R202, `10_state.md` R30). -/
theorem execRecvIn_of_pdec_ok {p : Params} {s : State} {F : Frame}
    (h : pdec p.tolPct s.pulsesIn = .ok F) :
    ∃ u : State, execRecvIn p s = .next u ∧ u.out = (fdecBuffer (loadFrame F s)).out := by
  have hscan := scanAll_answers_pdec p.tolPct s.pulsesIn
  rw [h] at hscan
  obtain ⟨-, hfailure, hframe⟩ := hscan
  refine ⟨fdecBuffer (writeScan (scanAll p.tolPct s.pulsesIn) s), ?_, fdecBuffer_out_congr hframe⟩
  rw [execRecvIn, recvEnd, hfailure]

/-- A failure of the first stage ends RECV (`43_driver.md` R203). -/
theorem execRecvIn_of_pdec_error {p : Params} {s : State} {k : Failure}
    (h : pdec p.tolPct s.pulsesIn = .error k) :
    execRecvIn p s = .next (raiseFailure k (writeScan (scanAll p.tolPct s.pulsesIn) s)) := by
  have hscan := scanAll_answers_pdec p.tolPct s.pulsesIn
  rw [h] at hscan
  rw [execRecvIn, recvEnd, hscan.2]

/-- Every legal build receives a sequence PENC wrote as this hardware does: at every tolerance the
nominal durations are in their windows, and up to 48 per cent the two space windows are disjoint
(`42_pulse_decode.md` R177, R190). -/
theorem execRecvIn_of_penc {p : Params} (hp : p.Legal) {u v : State} {F : Frame}
    (hu : u.pulsesIn = penc F) (hv : exec .recv u = .next v) :
    ∃ w : State, execRecvIn p u = .next w ∧ w.out = v.out := by
  have hpdec : ∀ {tol : Nat}, tol ≤ 48 → pdec tol u.pulsesIn = .ok F := fun htol => by
    rw [hu]
    exact pdec_penc htol F
  obtain ⟨w, hw, hout⟩ := execRecvIn_of_pdec_ok (p := p) (hpdec hp)
  exact ⟨w, hw, hout.trans (exec_recv_out_of_pdec_ok hv (hpdec (by decide))).symm⟩

end Sys2Proof.Machine

open Sys2Proof Sys2Proof.Machine

/-- Settles O4: the state the instruction runs on is the one `takeRequest` leaves. -/
theorem stepRunsTheDecodedInstruction : Obligations.StepRunsTheDecodedInstruction :=
  fun _ _ _ _ hr hd => step_of_decodeWord_ok hr hd

/-- Settles O59: the parameters reach PDEC and RECV only, and the builds share the request port. -/
theorem buildsDifferOnlyInTheScan : Obligations.BuildsDifferOnlyInTheScan :=
  ⟨fun s => ⟨stepIn_params s, fun i => execIn_params i s⟩, fun p s =>
    ⟨fun _ hpdec hrecv => execIn_of_ne p hpdec hrecv s,
      fun _ _ _ hr hd => stepIn_of_decodeWord_ok p hr hd⟩⟩

/-- Settles O60: the scan answers what the function PDEC does at the build's tolerance, and what SEND
emits is read alike in every legal build, so the round trip of this hardware (O50) is that of all. -/
theorem everyBuildScansAtItsOwnTolerance : Obligations.EveryBuildScansAtItsOwnTolerance := by
  refine ⟨fun p s => ⟨fun F hF => ?_, fun k hk => ?_⟩, fun p s u c hp hc hcanonical => ?_⟩
  · obtain ⟨u, hu, hout⟩ := execRecvIn_of_pdec_ok hF
    exact ⟨_, u, _, execPdecIn_of_pdec_ok hF, rfl, hu, rfl, hout.trans (fdecBuffer_out_congr rfl)⟩
  · exact ⟨_, _, execPdecIn_of_pdec_error hk, rfl, execRecvIn_of_pdec_error hk, rfl⟩
  · obtain ⟨F, hF⟩ := exists_encodesTo_of_canonical hcanonical
    have hsend := exec_send_of_fenc_ok hc ((fenc_ok_iff_encodesTo c F).2 hF)
    obtain ⟨t, P, ht, hP, hround⟩ := recv_send_equivalent (u := u) hc hcanonical
    cases hsend.symm.trans ht
    cases hP
    refine ⟨_, penc F, hsend, rfl, fun hu => ?_⟩
    obtain ⟨v, d, hv, hd, hequiv⟩ := hround hu
    obtain ⟨w, hw, hout⟩ := execRecvIn_of_penc hp hu hv
    exact ⟨w, d, hw, hout.trans hd, hequiv⟩

end
